-- ==== Sys2Proof/Word.lean ====
section
/-! DEFINITION. The two plainest types of the model: a byte, and a table of a fixed number of entries that is
read and written by number. No arithmetic of the part stands here (that is in Machine/Operands.lean). -/

namespace Sys2Proof

/-- One byte of a command body, of the store or of the highway. -/
abbrev Byte := BitVec 8

/-- A table of `n` entries, numbered from 0 (Table 0-3: positions, slots, clips, programmes, segments). -/
abbrev Tab (n : Nat) (α : Type) := Vector α n

/-- Entry `i` of a table. Every number the part uses lies inside its table; outside it the reading is `default`. -/
def tget {α : Type} [Inhabited α] {n : Nat} (t : Tab n α) (i : Nat) : α := t[i]?.getD default

/-- The table with entry `i` replaced; a number outside the table replaces nothing. -/
def tset {α : Type} {n : Nat} (t : Tab n α) (i : Nat) (a : α) : Tab n α := t.setIfInBounds i a

/-- The table with entry `i` replaced by a function of what it held. -/
def tmod {α : Type} [Inhabited α] {n : Nat} (t : Tab n α) (i : Nat) (f : α → α) : Tab n α :=
  tset t i (f (tget t i))

end Sys2Proof
end

