-- ==== Sys2Proof/Syntax.lean ====
section
/-! DEFINITION. The commands of the part: one constructor for each row of spec/opcode_table.json, in the table's
order. A row is either a command frame that a controller station has had accepted (its operands are the station and
the parameter bytes of its body, Table 12-1), or an event of one of the part's other paths, or an event that the
part's own timers and arbiters bring about. -/

namespace Sys2Proof

/-- The three controller roles (section 0.5.6). -/
inductive Role where
  | call | floor | maint
  deriving DecidableEq, Repr

/-- A controller station that can begin a command frame: stations 1 to 7 (R185; station 0 begins a reply). -/
inductive Station where
  | st1 | st2 | st3 | st4 | st5 | st6 | st7
  deriving DecidableEq, Repr

/-- What abandons a frame in progress by a character (R186). -/
inductive AbandonCause where
  /-- a character with a parity failure or a stop bit of 0, by its 12 bits; the first on the wire is bit 0 (Table 11-1) -/
  | badCharacter (ch : BitVec 12)
  /-- a length character of 0 or above 40 -/
  | badLength (n : Byte)
  /-- a check character that leaves a running sum other than 0 -/
  | failedCheck (check : Byte)
  /-- a good header character, which is then examined at once -/
  | newHeader (header : Byte)
  deriving DecidableEq, Repr

/-- When a character's row comes, and the bit times `low` for which the wire stays low right after the character. -/
inductive CharacterTime where
  /-- at its falling edge: the character is under way from then on, and ends 12 bit times later (R184) -/
  | begins (low : Nat)
  /-- at its end, when its 12 bits have been sampled -/
  | ended (low : Nat)
  deriving DecidableEq, Repr

/-- The commands and events of the part, in the order of spec/opcode_table.json. -/
inductive Instr where
  /-- DEVICE_RESET (R196): power-on or the release of the reset pin; `straps` is the part address that the straps give. -/
  | deviceReset (straps : BitVec 5)
  /-- STARTUP_STORE_READY (R151): the store reports ready in a wait, or before a later read, of the start-up load. -/
  | startupStoreReady
  /-- STARTUP_NO_STORE (R151): the store stays busy past a wait limit of the start-up load. -/
  | startupNoStore
  /-- STARTUP_LOAD_END (R151, R152): the directory reads complete; `dir` is what the store holds at addresses 0 to 1543. -/
  | startupLoadEnd (dir : List Byte)
  /-- FRAME_BOUNDARY (R173): a frame ends and the next one begins. -/
  | frameBoundary
  /-- BLOCK_BOUNDARY (R182): the 40th frame of a block ends. -/
  | blockBoundary
  /-- GRACE_TIMER_EXPIRY (R178): the elapsed count has reached its limit. -/
  | graceTimerExpiry
  /-- LINE_SYNC (R174, R175): a frame sync pulse; `rx` is what the line side sends in TS0 to TS31 of the highway frame that the pulse opens. -/
  | lineSync (rx : Tab 32 Byte)
  /-- ACQUISITION_TIMEOUT (R174): the sync tick counter of an ACQUIRING monitor reaches 2112. -/
  | acquisitionTimeout
  /-- CLOCK_FAIL (R176): the sync tick counter of a LOCKED monitor reaches 2112. -/
  | clockFail
  /-- HEADSET_WORD_ARRIVAL (R154): the inbound word of position `p` has arrived; its first bit sent is the highest of `word` (Table 12-6). -/
  | headsetWordArrival (p : Fin 16) (word : BitVec 19)
  /-- FETCH_GRANT (R140): the arbiter grants the store link. -/
  | fetchGrant
  /-- FETCH_ARRIVAL (R119): the store has delivered the bytes of the fetch that holds the link. -/
  | fetchArrival (bytes : List Byte)
  /-- FETCH_TIMEOUT (R141): the store is still busy 5 ms after the grant. -/
  | fetchTimeout
  /-- OPERATION_STEP_START (R142): a step of the store operation in flight starts. -/
  | operationStepStart
  /-- ERASE_DONE (R143, R144): the store reports ready with the erase finished. -/
  | eraseDone
  /-- ERASE_TIMEOUT (R143): the erase run time reaches 400 ms. -/
  | eraseTimeout
  /-- SUSPEND_TIMEOUT (R144): the store has not reported ready 5 ms after a suspend. -/
  | suspendTimeout
  /-- ERASE_RESUME (R144): resume is sent to a suspended erase. -/
  | eraseResume
  /-- PROGRAM_DONE (R145): the store reports ready after a page program. -/
  | programDone
  /-- PROGRAM_TIMEOUT (R145): the store is still busy 5 ms after a page program. -/
  | programTimeout
  /-- STORE_READ_SERVE (R147): the pending read takes the free link. -/
  | storeReadServe
  /-- STORE_READ_COMPLETE (R147): the bytes of the pending read have arrived. -/
  | storeReadComplete (bytes : List Byte)
  /-- STORE_READ_ABANDON (R147): no byte has begun to arrive 1 ms after the read was taken. -/
  | storeReadAbandon
  /-- RECEIVER_IDLE_TIMEOUT (R186): 24 bit times of idle wire inside a frame. -/
  | receiverIdleTimeout
  /-- FRAME_ABANDONED (R186): a character abandons the frame in progress. -/
  | frameAbandoned (why : AbandonCause)
  /-- LINK_BREAK (R184, R187): the wire has been low for 24 bit times in a row. -/
  | linkBreak
  /-- UNKNOWN_COMMAND (R188): an accepted frame from a station without a role, or with a code that names no command. -/
  | unknownCommand (st : Station) (body : List Byte)
  /-- REPLY_START (R189): 12 bit times have passed, and the wire has been high for the last 12. -/
  | replyStart
  /-- REPLY_DROP (R189): the owed reply has not begun within 2 ms. -/
  | replyDrop
  /-- REPLY_COLLISION (R190): read-back finds a 0 where the part released a 1. -/
  | replyCollision
  /-- CONNECT, an accepted frame: `params` is the body after the code: p, rx, tx. -/
  | connect (st : Station) (params : List Byte)
  /-- HOLD, an accepted frame: `params` is the body after the code: p, k. -/
  | hold (st : Station) (params : List Byte)
  /-- RESUME, an accepted frame: `params` is the body after the code: p. -/
  | resume (st : Station) (params : List Byte)
  /-- RELEASE, an accepted frame: `params` is the body after the code: p. -/
  | release (st : Station) (params : List Byte)
  /-- MUTE, an accepted frame: `params` is the body after the code: p, flag. -/
  | mute (st : Station) (params : List Byte)
  /-- SET_CALL_GAINS, an accepted frame: `params` is the body after the code: p, rx gain (2), tx gain (2). -/
  | setCallGains (st : Station) (params : List Byte)
  /-- SET_SIDETONE, an accepted frame: `params` is the body after the code: p, gain (2). -/
  | setSidetone (st : Station) (params : List Byte)
  /-- MONITOR, an accepted frame: `params` is the body after the code: s, a, mode, gain (2). -/
  | monitor (st : Station) (params : List Byte)
  /-- UNMONITOR, an accepted frame: `params` is the body after the code: a. -/
  | unmonitor (st : Station) (params : List Byte)
  /-- WHISPER_PROMPT, an accepted frame: `params` is the body after the code: p, clip, gain (2), mode. -/
  | whisperPrompt (st : Station) (params : List Byte)
  /-- CLEAR_WHISPERS, an accepted frame: `params` is the body after the code: p. -/
  | clearWhispers (st : Station) (params : List Byte)
  /-- SET_EC, an accepted frame: `params` is the body after the code: p, step, shift, freeze, taps. -/
  | setEc (st : Station) (params : List Byte)
  /-- RESET_EC, an accepted frame: `params` is the body after the code: p. -/
  | resetEc (st : Station) (params : List Byte)
  /-- SET_LEVELS, an accepted frame: `params` is the body after the code: V, B, A_max, interval, G, D. -/
  | setLevels (st : Station) (params : List Byte)
  /-- SET_NEIGHBOURS, an accepted frame: `params` is the body after the code: p, n, n positions. -/
  | setNeighbours (st : Station) (params : List Byte)
  /-- CLIP_LOAD, an accepted frame: `params` is the body after the code: clip, class, start (3), length (3), loop (3). -/
  | clipLoad (st : Station) (params : List Byte)
  /-- CLIP_DELETE, an accepted frame: `params` is the body after the code: clip. -/
  | clipDelete (st : Station) (params : List Byte)
  /-- SET_PROGRAMME, an accepted frame: `params` is the body after the code: k, clip or 255. -/
  | setProgramme (st : Station) (params : List Byte)
  /-- CALLER_PROMPT, an accepted frame: `params` is the body after the code: p, clip, gain (2), repeats, agent-hears. -/
  | callerPrompt (st : Station) (params : List Byte)
  /-- STOP_PROMPT, an accepted frame: `params` is the body after the code: p. -/
  | stopPrompt (st : Station) (params : List Byte)
  /-- STORE_ERASE, an accepted frame: `params` is the body after the code: sector (2). -/
  | storeErase (st : Station) (params : List Byte)
  /-- STORE_WRITE, an accepted frame: `params` is the body after the code: address (3), n, n bytes. -/
  | storeWrite (st : Station) (params : List Byte)
  /-- STORE_READ, an accepted frame: `params` is the body after the code: address (3), n. -/
  | storeRead (st : Station) (params : List Byte)
  /-- SAVE_DIRECTORY, an accepted frame: `params` is the body after the code: none. -/
  | saveDirectory (st : Station) (params : List Byte)
  /-- SET_GRACE, an accepted frame: `params` is the body after the code: g (2). -/
  | setGrace (st : Station) (params : List Byte)
  /-- FORCE_CLOCK_FAIL, an accepted frame: `params` is the body after the code: flag. -/
  | forceClockFail (st : Station) (params : List Byte)
  /-- ACK_CLOCK_FAIL, an accepted frame: `params` is the body after the code: none. -/
  | ackClockFail (st : Station) (params : List Byte)
  /-- READ_POSITION, an accepted frame: `params` is the body after the code: p. -/
  | readPosition (st : Station) (params : List Byte)
  /-- READ_STREAM, an accepted frame: `params` is the body after the code: slot. -/
  | readStream (st : Station) (params : List Byte)
  /-- READ_CLIP, an accepted frame: `params` is the body after the code: clip. -/
  | readClip (st : Station) (params : List Byte)
  /-- READ_TIMING, an accepted frame: `params` is the body after the code: none. -/
  | readTiming (st : Station) (params : List Byte)
  /-- READ_POOL, an accepted frame: `params` is the body after the code: none. -/
  | readPool (st : Station) (params : List Byte)
  /-- FETCH_NOTICES, an accepted frame: `params` is the body after the code: max. -/
  | fetchNotices (st : Station) (params : List Byte)
  /-- GOOD_CHARACTER (R184, R185): a character, by its 12 bits (the first on the wire is bit 0, Table 11-1), at its falling
  edge or at its end. -/
  | goodCharacter (ch : BitVec 12) (w : CharacterTime)
  /-- REPLY_END (R190): the reply has been sent in full. -/
  | replyEnd
  /-- RESET_PIN_HELD (R196): the board asserts the reset pin. -/
  | resetPinHeld
  /-- STEP_STORE_READY (R143, R145): the store reports ready to a started step. -/
  | stepStoreReady
  deriving DecidableEq, Repr

end Sys2Proof
end

