-- ==== Sys2Proof/Decode.lean ====
section
/-! DEFINITION. How words and bytes spell commands. The opcode table gives no row any bits (they are events and
frames, not instruction words), so `decodeTableWord` spells none. The bytes that do spell commands are the body of a
Control Link frame: a command code and the parameters (Table 12-1); `frameCommand` reads them and `frameBody`
writes them. -/

namespace Sys2Proof

/-- The command that a word spells by the opcode table's bits: none, since no row of the table has bits. -/
def decodeTableWord (_nbits _w : Nat) : Option Instr := none

/-- One row of Table 12-1: the code byte, and the command that an accepted frame with this code is. -/
structure CodeRow where
  code : Byte
  command : Station → List Byte → Instr

/-- Table 12-1, in its order. -/
def codeTable : List CodeRow :=
  [⟨0x10, .connect⟩, ⟨0x11, .hold⟩, ⟨0x12, .resume⟩, ⟨0x13, .release⟩, ⟨0x14, .mute⟩, ⟨0x15, .setCallGains⟩,
   ⟨0x16, .setSidetone⟩, ⟨0x20, .monitor⟩, ⟨0x21, .unmonitor⟩, ⟨0x22, .whisperPrompt⟩, ⟨0x23, .clearWhispers⟩,
   ⟨0x30, .setEc⟩, ⟨0x31, .resetEc⟩, ⟨0x32, .setLevels⟩, ⟨0x33, .setNeighbours⟩, ⟨0x40, .clipLoad⟩,
   ⟨0x41, .clipDelete⟩, ⟨0x42, .setProgramme⟩, ⟨0x43, .callerPrompt⟩, ⟨0x44, .stopPrompt⟩, ⟨0x50, .storeErase⟩,
   ⟨0x51, .storeWrite⟩, ⟨0x52, .storeRead⟩, ⟨0x53, .saveDirectory⟩, ⟨0x60, .setGrace⟩, ⟨0x61, .forceClockFail⟩,
   ⟨0x62, .ackClockFail⟩, ⟨0x70, .readPosition⟩, ⟨0x71, .readStream⟩, ⟨0x72, .readClip⟩, ⟨0x73, .readTiming⟩,
   ⟨0x74, .readPool⟩, ⟨0x75, .fetchNotices⟩]

/-- The row of opcode_table.json that an accepted frame is, by its station and its body (R188): the command its
code names, or UNKNOWN_COMMAND for a code that names none. -/
def frameCommand (st : Station) (body : List Byte) : Instr :=
  match body with
  | [] => .unknownCommand st []
  | c :: ps =>
    match codeTable.find? (fun r => r.code == c) with
    | some r => r.command st ps
    | none => .unknownCommand st (c :: ps)

/-- The station and the body of the frame that a row is; none for the rows that are events. -/
def frameBody : Instr → Option (Station × List Byte)
  | .unknownCommand st body => some (st, body)
  | .connect st ps => some (st, 0x10 :: ps)
  | .hold st ps => some (st, 0x11 :: ps)
  | .resume st ps => some (st, 0x12 :: ps)
  | .release st ps => some (st, 0x13 :: ps)
  | .mute st ps => some (st, 0x14 :: ps)
  | .setCallGains st ps => some (st, 0x15 :: ps)
  | .setSidetone st ps => some (st, 0x16 :: ps)
  | .monitor st ps => some (st, 0x20 :: ps)
  | .unmonitor st ps => some (st, 0x21 :: ps)
  | .whisperPrompt st ps => some (st, 0x22 :: ps)
  | .clearWhispers st ps => some (st, 0x23 :: ps)
  | .setEc st ps => some (st, 0x30 :: ps)
  | .resetEc st ps => some (st, 0x31 :: ps)
  | .setLevels st ps => some (st, 0x32 :: ps)
  | .setNeighbours st ps => some (st, 0x33 :: ps)
  | .clipLoad st ps => some (st, 0x40 :: ps)
  | .clipDelete st ps => some (st, 0x41 :: ps)
  | .setProgramme st ps => some (st, 0x42 :: ps)
  | .callerPrompt st ps => some (st, 0x43 :: ps)
  | .stopPrompt st ps => some (st, 0x44 :: ps)
  | .storeErase st ps => some (st, 0x50 :: ps)
  | .storeWrite st ps => some (st, 0x51 :: ps)
  | .storeRead st ps => some (st, 0x52 :: ps)
  | .saveDirectory st ps => some (st, 0x53 :: ps)
  | .setGrace st ps => some (st, 0x60 :: ps)
  | .forceClockFail st ps => some (st, 0x61 :: ps)
  | .ackClockFail st ps => some (st, 0x62 :: ps)
  | .readPosition st ps => some (st, 0x70 :: ps)
  | .readStream st ps => some (st, 0x71 :: ps)
  | .readClip st ps => some (st, 0x72 :: ps)
  | .readTiming st ps => some (st, 0x73 :: ps)
  | .readPool st ps => some (st, 0x74 :: ps)
  | .fetchNotices st ps => some (st, 0x75 :: ps)
  | .deviceReset _ | .startupStoreReady | .startupNoStore | .startupLoadEnd _ | .frameBoundary | .blockBoundary
  | .graceTimerExpiry | .lineSync _ | .acquisitionTimeout | .clockFail | .headsetWordArrival _ _ | .fetchGrant
  | .fetchArrival _ | .fetchTimeout | .operationStepStart | .eraseDone | .eraseTimeout | .suspendTimeout
  | .eraseResume | .programDone | .programTimeout | .storeReadServe | .storeReadComplete _ | .storeReadAbandon
  | .receiverIdleTimeout | .frameAbandoned _ | .linkBreak | .replyStart | .replyDrop | .replyCollision
  | .goodCharacter _ _ | .replyEnd | .resetPinHeld | .stepStoreReady => none

end Sys2Proof
end

