-- ==== Sys2Proof/Config.lean ====
section
/-! DEFINITION. What the part fixes once and for all: the limits of its timers and lists, table T, and the
parameters' ranges. The spec leaves no RESULT of a command open, so there is no free value here
(NOTES.md, "What the manual leaves open"). -/

namespace Sys2Proof.Config

/-- Oscillator ticks of a frame on internal timing (R172, R173). -/
def frameTicks : Nat := 2048
/-- The sync tick counter's limit: acquisition falls back, or a loss is declared (R174, R176). -/
def syncLimit : Nat := 2112
/-- The least interval of a sync that counts, in acquisition and in lock (R174, R175). -/
def syncLeast : Nat := 2044
/-- The greatest interval of a sync that raises the acquisition count (R174). -/
def acquireMost : Nat := 2052
/-- The greatest interval of a sync that is accepted in LOCKED (R175). -/
def acceptMost : Nat := 2111
/-- Good syncs that lock (R174). -/
def lockCount : Nat := 16
/-- The phase from which the locking sync is itself a boundary (R173). -/
def lockPhase : Nat := 1024
/-- Frames of a block (R182). -/
def blockFrames : Nat := 40
/-- Where the elapsed count of the grace timer stops rising (R178). -/
def elapsedMost : Nat := 5100
/-- Blocks of one unit of the grace period (R178). -/
def graceUnit : Nat := 20

/-- 1 ms in oscillator ticks of 16.384 MHz (R172). -/
def ms : Nat := 16384
/-- An erase may run for 400 ms, and the start-up load waits so long for the store (R143, R151). -/
def eraseLimit : Nat := 400 * ms
/-- A fetch, an unanswered suspend, a page program, and the start-up load after its abandon and at each later read
may find the store busy for 5 ms (R141, R144, R145, R151). -/
def busyLimit : Nat := 5 * ms
/-- A STORE_READ is abandoned 1 ms after it was taken (R147). -/
def readLimit : Nat := ms
/-- A reply that has not begun 2 ms after its event is dropped (R189). -/
def replyLimit : Nat := 2 * ms
/-- 24 bit times of idle wire (R186), and the 12 bit times that a character begun in the last of them takes to
arrive: a bit time is 16.384 ticks, and the character is seen at its end. 36 x 16.384 ticks, rounded up
(DEDUCED, log entry 10). -/
def idleLimit : Nat := 590
/-- The whole ticks in a number of bit times of the Control Link: a bit time is 16.384 ticks (R172, section 11.1). -/
def bitTicks (n : Nat) : Nat := n * 16384 / 1000
/-- The ticks in which a number of bit times has passed: a bit time is 16.384 ticks, rounded up. -/
def ticksOver (n : Nat) : Nat := (n * 16384 + 999) / 1000
/-- The bit times of a character (R184, Table 11-1). -/
def characterBits : Nat := 12
/-- The 12 bit times before a reply, in ticks, rounded up (R189). -/
def replyGap : Nat := 197
/-- Bit times of low wire that are a break (R184). -/
def breakBits : Nat := 24

/-- The greatest gain code (section 0.5.3). -/
def gainMost : Nat := 16383
/-- Unity gain (section 0.5.3). -/
def unity : Nat := 8192
/-- The reset value of the sidetone gain (R2). -/
def sidetoneReset : Nat := 1031
/-- The mute ramp and the stop fade have 40 steps (R19, R122). -/
def rampTop : Nat := 40

/-- Records of a notice queue (R193). -/
def queueRoom : Nat := 32
/-- Items of a whisper queue (R33). -/
def whisperRoom : Nat := 4
/-- Samples of a fetch block (R119). -/
def fetchBlock : Nat := 64
/-- A slot asks for a fetch at this fill or less (R119). -/
def askFill : Nat := 192
/-- A slot leaves priming at this fill (R121). -/
def primeFill : Nat := 128
/-- Bytes of the store (R138). -/
def storeBytes : Nat := 16777216
/-- Bytes of a sector, and the lowest address of a clip (R138, R113). -/
def sectorBytes : Nat := 4096
/-- Bytes of a page (R138). -/
def pageBytes : Nat := 256
/-- Bytes of the directory image (R150). -/
def imageBytes : Nat := 1544

/-- Good words in a row that bring a link UP (R158). -/
def upRun : Nat := 64
/-- Bad words in a row that take a link DOWN (R159). -/
def downRun : Nat := 8
/-- Good words at a new button level that change the stable button (R163). -/
def buttonRun : Nat := 160
/-- Frames of double talk that follow the near-end speech test (R64). -/
def hangoverTop : Nat := 240
/-- Taps of a coefficient segment (R80). -/
def segmentTaps : Nat := 32

/-- Table T (R43): entry i is 32768 times 2 to the power -i/16, rounded. -/
def tableT : List Nat :=
  [32768, 31379, 30048, 28774, 27554, 26386, 25268, 24196, 23170, 22188, 21247, 20347, 19484, 18658, 17867, 17109]

end Sys2Proof.Config
end

