-- ==== Sys2Proof/Machine/State.lean ====
section
/-! DEFINITION. Everything the spec gives the part to hold, block by block (Table 0-1), as plain data, and its value
right after device reset. Audio samples and coefficients are integers (section 0.5.2); numbered things are natural
numbers (Table 0-3); a field that the spec makes absent at times is an Option. -/

namespace Sys2Proof.Machine

/-! ### Notice Unit (chapter 11) -/

/-- The kinds of notice, in the order of Table 12-3. -/
inductive NoticeKind where
  | callReleased | muteEffective | buttonMute | headsetUp | headsetDown | promptEnded | streamUnderrun | clockFail
  | clockLocked | started | monitorEnded | whisperEnded | whisperFlushed | tapShortfall | tapGranted
  | programmeEnded | programmeChanged | clipFreed | storeDone
  deriving DecidableEq, Repr

/-- The causes, in the order in which section 12.2 numbers them. -/
inductive Cause where
  | completed | interrupted | flushed | stopped | released | noListeners | dropped | unavailable | supervisorCall
  | callEnd | lineLoss | ok | timeout | bad | noStore
  deriving DecidableEq, Repr

/-- A notice record (Table 11-7). -/
structure Notice where
  kind : NoticeKind
  position : Option Nat
  subject : Option Nat
  cause : Option Cause
  value : Option Nat
  stamp : Nat
  deriving DecidableEq, Repr

/-- One notice queue, oldest record first, with its overflow flag and its attention line (R193, R195). -/
structure NoticeQueue where
  records : List Notice
  overflow : Bool
  attention : Bool
  deriving DecidableEq, Repr, Inhabited

/-! ### Position Table (chapters 1 and 2) -/

inductive CallState where
  | free | connected | held
  deriving DecidableEq, Repr, Inhabited

/-- The trunk binding: the two timeslots of a call (R1). -/
structure Binding where
  rx : Nat
  tx : Nat
  deriving DecidableEq, Repr

inductive MonitorMode where
  | listen | whisper | barge
  deriving DecidableEq, Repr

/-- The two forms of a monitor relation (Table 2-1). -/
inductive RelationForm where
  | monitoredBy | monitoring
  deriving DecidableEq, Repr

/-- A position's side of a monitor relation; the live whisper gain is present in WHISPER and BARGE (R23). -/
structure Relation where
  form : RelationForm
  other : Nat
  mode : MonitorMode
  gain : Option Nat
  deriving DecidableEq, Repr

/-- A position record (Table 1-1). -/
structure Position where
  call : CallState
  binding : Option Binding
  hold : Option Nat
  cmdMute : Bool
  btnMute : Bool
  effMute : Bool
  ramp : Nat
  relation : Option Relation
  rxGain : Nat
  txGain : Nat
  sidetone : Nat
  deriving DecidableEq, Repr, Inhabited

/-! ### Headset Link Unit (chapter 9) -/

inductive LinkState where
  | down | probing | up
  deriving DecidableEq, Repr, Inhabited

/-- A link record (Table 9-3), and the outbound word last sent on the link (R155). -/
structure Link where
  state : LinkState
  goodRun : Nat
  badRun : Nat
  held : Int
  stable : Bool
  change : Nat
  outWord : BitVec 18
  deriving DecidableEq, Repr, Inhabited

/-! ### Echo Canceller Array and Tap Pool (chapters 4 and 5) -/

inductive CancellerState where
  | off | adapting | doubleTalk | quietRef | frozen
  deriving DecidableEq, Repr, Inhabited

/-- The canceller of one position (Table 4-1). `gone` is the value that left the history last (R63) and `window`
the window length (R89). The coefficients are in the segments of the pool (R60). -/
structure Canceller where
  history : List Int
  gone : Int
  power : Int
  hangover : Nat
  state : CancellerState
  step : Nat
  shift : Nat
  freeze : Bool
  request : Nat
  window : Nat
  deriving DecidableEq, Repr, Inhabited

/-- A coefficient segment and its entry of the owner table (R80). -/
structure Segment where
  owner : Option Nat
  coeffs : List Int
  deriving DecidableEq, Repr, Inhabited

/-- The Tap Pool (Table 5-1). The free count and the granted counts are counts of these entries. -/
structure Pool where
  segs : Tab 64 Segment
  lists : Tab 16 (List Nat)
  short : List Nat
  deriving DecidableEq, Repr

/-! ### Level and Bleed Unit (chapter 6) -/

/-- The unit's state for one position (Table 6-1). -/
structure Level where
  level : Nat
  floor : Nat
  rise : Nat
  raw : Bool
  hang : Nat
  voice : Bool
  bleed : Bool
  atten : Nat
  guard : Nat
  fall : Nat
  neighbours : List Nat
  energy : Nat
  adapting : Nat
  deriving DecidableEq, Repr, Inhabited

/-- The part-wide level parameters (Table 6-2). -/
structure LevelParams where
  voice : Nat
  bleed : Nat
  attenMost : Nat
  interval : Nat
  guard : Nat
  leak : Nat
  deriving DecidableEq, Repr

/-! ### Mix Engine (chapter 3) -/

/-- The last sums of a position and its two block totals (R55), and its two microphone samples of the frame in
progress, which are sources of the next frame (R41). -/
structure Mix where
  x : Int
  e : Int
  t : Option Int
  energy : Nat
  presence : Nat
  raw : Int
  processed : Int
  deriving DecidableEq, Repr, Inhabited

/-! ### Playback Engine (chapters 2 and 7) -/

inductive ClipClass where
  | music | whisper | caller
  deriving DecidableEq, Repr

inductive ClipState where
  | empty | active | retiring
  deriving DecidableEq, Repr, Inhabited

/-- What a catalogue entry says of its clip while it is not EMPTY; the loop offset is present for MUSIC. -/
structure ClipBody where
  cls : ClipClass
  start : Nat
  length : Nat
  loop : Option Nat
  deriving DecidableEq, Repr

/-- A catalogue entry (Table 7-1). -/
structure Clip where
  state : ClipState
  body : Option ClipBody
  use : Nat
  fenced : Bool
  deriving DecidableEq, Repr, Inhabited

inductive StreamState where
  | idle | priming | playing | ending | stopping
  deriving DecidableEq, Repr, Inhabited

inductive StreamKind where
  | programme | whisper | caller
  deriving DecidableEq, Repr

inductive RampDir where
  | falling | rising
  deriving DecidableEq, Repr

/-- A stream slot (Table 7-2), and the sample it yielded in the frame in progress (R117, R122). The fill level is
the length of the buffer; the oldest sample is first. -/
structure Slot where
  state : StreamState
  kind : Option StreamKind
  target : Option Nat
  clip : Option Nat
  addr : Nat
  left : Nat
  buffer : List Int
  repeats : Option Nat
  hears : Option Bool
  gain : Option Nat
  ramp : Nat
  dir : Option RampDir
  begun : Bool
  cause : Option Cause
  underrun : Bool
  out : Int
  deriving DecidableEq, Repr, Inhabited

/-- The pending field of a programme entry (Table 7-6): empty, a clip, or the mark NONE. -/
inductive PendingClip where
  | empty | clip (c : Nat) | none
  deriving DecidableEq, Repr, Inhabited

/-- A programme entry (Table 7-6). -/
structure Programme where
  clip : Option Nat
  pending : PendingClip
  listeners : Nat
  deriving DecidableEq, Repr, Inhabited

inductive Admission where
  | append | interrupt
  deriving DecidableEq, Repr

/-- A whisper queue item (Table 2-4). -/
structure WhisperItem where
  clip : Nat
  gain : Nat
  admission : Admission
  deriving DecidableEq, Repr

/-! ### Store Link Unit (chapter 8) -/

inductive LinkActivity where
  | idle | fetch | read | program | eraseRunning | eraseSuspended
  deriving DecidableEq, Repr

inductive OpKind where
  | erase | write | save
  deriving DecidableEq, Repr

/-- Where the current step of the store operation stands (R142 to R145): not started; started and waiting for the
store to be ready; the erase running; suspend sent and not yet answered; the erase suspended; the page program sent. -/
inductive StepPhase where
  | notStarted | waitReady | erasing | suspending | suspended | programming
  deriving DecidableEq, Repr

/-- The store operation in flight (Table 8-2): its kind, its target range, its data (the bytes of a write, the image
of a save), the number of its next step, the erase run time in ticks, and the ticks since the store was last asked
for something that has a 5 ms limit. -/
structure Operation where
  kind : OpKind
  start : Nat
  size : Nat
  data : List Byte
  step : Nat
  phase : StepPhase
  runTime : Nat
  clock : Nat
  deriving DecidableEq, Repr

/-- A STORE_READ not yet answered (Table 8-2): whether it holds the link, and the ticks since it was taken. -/
structure PendingRead where
  addr : Nat
  count : Nat
  holding : Bool
  clock : Nat
  deriving DecidableEq, Repr

/-- The fetch that holds the link: its slot, what it reads, whether its stream still stands (R119), and the ticks
since the grant. -/
structure Fetch where
  slot : Nat
  addr : Nat
  count : Nat
  live : Bool
  clock : Nat
  deriving DecidableEq, Repr

/-- A request of the part to the store (Table 8-1). The status requests by which the part sees the store ready are not among
them: R138 bounds how soon that is seen and does not say when they are sent (DESIGN CHOICE, log entry 47). -/
inductive StoreRequest where
  | read (addr count : Nat)
  | program (addr : Nat) (bytes : List Byte)
  | erase (sector : Nat)
  | suspend
  | resume
  | abandon
  deriving DecidableEq, Repr

/-- Where the start-up load stands (R151): waiting for the store; abandon sent and waiting again; the directory being
read, the header first. -/
inductive StartupPhase where
  | waitReady | abandoned | reading
  deriving DecidableEq, Repr

/-- The start-up load (R151): its phase, and the ticks since its wait or its current read began. -/
structure Startup where
  phase : StartupPhase
  clock : Nat
  deriving DecidableEq, Repr

/-- The Store Link Unit (Table 8-2), the start-up load, and the request last sent to the store. -/
structure Store where
  activity : LinkActivity
  lastServed : Nat
  op : Option Operation
  read : Option PendingRead
  fetch : Option Fetch
  startup : Option Startup
  request : Option StoreRequest
  deriving DecidableEq, Repr

/-! ### Timing Monitor and Highway Port (chapter 10) -/

inductive TimingState where
  | freeRun | acquiring | locked
  deriving DecidableEq, Repr

/-- A frame that has been begun by a boundary but whose work has not yet run: a line frame, with what its receive
timeslots carry, or a frame on internal timing (R173). -/
inductive NextFrame where
  | line (rx : Tab 32 Byte)
  | internal
  deriving DecidableEq, Repr

/-- The Timing Monitor (Table 10-2). `frames` is the number of frames of the block that have begun (R182), and
`boundary` a boundary that an accepted sync or a loss has made (R173). -/
structure Timing where
  state : TimingState
  syncTicks : Nat
  count : Nat
  frameTimer : Nat
  failFlag : Bool
  force : Bool
  grace : Nat
  running : Bool
  elapsed : Nat
  blockCount : Nat
  frames : Nat
  boundary : Option NextFrame
  deriving DecidableEq, Repr

/-- The Highway Port: the receive bytes of the frame in progress if it is a line frame (R168), the bytes driven on the
send timeslots (R169), and the drive set, rising. -/
structure Highway where
  rx : Option (Tab 32 Byte)
  tx : Tab 32 (Option Byte)
  drive : List Nat
  deriving DecidableEq, Repr

/-! ### Control Link Port (chapter 11) -/

inductive ReceiverState where
  | sleep | length | body | check
  deriving DecidableEq, Repr

/-- The status codes (Table 11-4), in order. -/
inductive Status where
  | done | taken | busy | role | range | state | inUse | noRoom | cls | queueFull | unknown | length
  deriving DecidableEq, Repr

/-- A reply that is owed and not yet begun (R189): `waiting` while a STORE_READ has no outcome; `clock` counts ticks
from the event after which the reply may begin. -/
structure Owed where
  station : Station
  code : Byte
  status : Status
  clamped : Bool
  data : List Byte
  waiting : Bool
  clock : Nat
  deriving DecidableEq, Repr

/-- A character under way on the wire: its 12 bits, the bit times for which the wire stays low after it, and the ticks since
its falling edge (R184) (DESIGN CHOICE, log entry 46). -/
structure Coming where
  ch : BitVec 12
  low : Nat
  clock : Nat
  deriving DecidableEq, Repr

/-- The Control Link Port: the address of the part, the receiver (Table 11-2: its state, the station and length of
the frame in progress, the kept body, the running sum and the ticks since the last stop bit), the ticks that the wire
has been high, as far as a reply needs them (R189), the character under way, the reply owed and the reply being sent. -/
structure Port where
  address : BitVec 5
  state : ReceiverState
  station : Option Station
  length : Nat
  body : List Byte
  sum : Byte
  idle : Nat
  quiet : Nat
  coming : Option Coming
  owed : Option Owed
  sending : Option (List Byte)
  deriving DecidableEq, Repr

/-- The part is STARTING from device reset to the end of the start-up load (R197). -/
inductive PartMode where
  | starting | ready
  deriving DecidableEq, Repr

/-- Nothing stops the part: the spec gives every event an outcome, so there is no reason for a fault. -/
inductive Fault where
  deriving DecidableEq, Repr

/-- Why the model gives no meaning. -/
inductive Refusal where
  /-- Raised by Machine/Dispatch.lean alone, for a row without a meaning (safe). No arm raises it. -/
  | notModelled (mnemonic : String)
  deriving DecidableEq, Repr

/-- The whole part, with the queue of the commands and events that wait, first in, first out. `words` is the number of
headset ports whose inbound word of the frame in progress has arrived, P0 first (R154). -/
structure State where
  pending : List Instr
  mode : PartMode
  resetHeld : Bool
  pos : Tab 16 Position
  link : Tab 16 Link
  ec : Tab 16 Canceller
  pool : Pool
  lev : Tab 16 Level
  params : LevelParams
  mix : Tab 16 Mix
  clip : Tab 128 Clip
  slot : Tab 24 Slot
  prog : Tab 4 Programme
  queue : Tab 16 (List WhisperItem)
  waitList : List Nat
  store : Store
  tmn : Timing
  hwy : Highway
  words : Nat
  port : Port
  callQ : NoticeQueue
  floorQ : NoticeQueue
  maintQ : NoticeQueue
  deriving DecidableEq, Repr

/-! ### Reset values -/

/-- R2. -/
def Position.reset : Position :=
  { call := .free, binding := none, hold := none, cmdMute := false, btnMute := false, effMute := false,
    ramp := Config.rampTop, relation := none, rxGain := Config.unity, txGain := Config.unity,
    sidetone := Config.sidetoneReset }

/-- R157. The outbound word of the first frame carries 0 and a lamp that is off (R155). -/
def Link.reset : Link :=
  { state := .down, goodRun := 0, badRun := 0, held := 0, stable := false, change := 0, outWord := 0 }

/-- R58, R89. That the value which left the history last is 0 is the model's: R58 gives the 256 history values alone, and
no rule gives this one (DESIGN CHOICE, log entry 42). -/
def Canceller.reset : Canceller :=
  { history := List.replicate 256 0, gone := 0, power := 0, hangover := 0, state := .off, step := 8, shift := 1,
    freeze := false, request := 4, window := 0 }

/-- A free segment, which holds zeros (R80). -/
def Segment.free : Segment := { owner := none, coeffs := List.replicate Config.segmentTaps 0 }

/-- R80. -/
def Pool.reset : Pool :=
  { segs := Vector.replicate 64 Segment.free, lists := Vector.replicate 16 [], short := [] }

/-- R110. -/
def Level.reset : Level :=
  { level := 0, floor := 287, rise := 0, raw := false, hang := 0, voice := false, bleed := false, atten := 48,
    guard := 0, fall := 0, neighbours := [], energy := 0, adapting := 0 }

/-- R106, Table 6-2. -/
def LevelParams.reset : LevelParams :=
  { voice := 24, bleed := 16, attenMost := 48, interval := 8, guard := 8, leak := 64 }

/-- R41, R54, R55. -/
def Mix.reset : Mix := { x := 0, e := 0, t := none, energy := 0, presence := 0, raw := 0, processed := 0 }

/-- R113: an EMPTY entry. -/
def Clip.empty : Clip := { state := .empty, body := none, use := 0, fenced := false }

/-- R117: an IDLE slot; S0 to S3 keep their kind, their target and their gain. -/
def Slot.fresh (i : Nat) : Slot :=
  { state := .idle, kind := if i < 4 then some .programme else none, target := if i < 4 then some i else none,
    clip := none, addr := 0, left := 0, buffer := [], repeats := none, hears := none,
    gain := if i < 4 then some Config.unity else none, ramp := Config.rampTop, dir := none, begun := false,
    cause := none, underrun := false, out := 0 }

/-- R117: the 24 slots at reset. -/
def slotsReset : Tab 24 Slot :=
  tset (tset (tset (tset (Vector.replicate 24 (Slot.fresh 4)) 0 (Slot.fresh 0)) 1 (Slot.fresh 1)) 2 (Slot.fresh 2)) 3
    (Slot.fresh 3)

/-- R132. -/
def Programme.reset : Programme := { clip := none, pending := .empty, listeners := 0 }

/-- R139, Table 8-2; the start-up load begins at once (R151). -/
def Store.reset : Store :=
  { activity := .idle, lastServed := 23, op := none, read := none, fetch := none,
    startup := some { phase := .waitReady, clock := 0 }, request := none }

/-- R172, Table 10-2. The first frame begins at the reset, so one frame of the block has begun
(DEDUCED, log entry 13). -/
def Timing.reset : Timing :=
  { state := .freeRun, syncTicks := 0, count := 0, frameTimer := 0, failFlag := false, force := false, grace := 50,
    running := false, elapsed := 0, blockCount := 0, frames := 1, boundary := none }

/-- R168, R169. -/
def Highway.reset : Highway := { rx := none, tx := Vector.replicate 32 none, drive := [] }

/-- R196. The address is what the straps give: 0 here (DESIGN CHOICE, log entry 1); DEVICE_RESET carries it. The time
that the wire has been high counts from the reset (DESIGN CHOICE, log entry 25). -/
def Port.reset : Port :=
  { address := 0, state := .sleep, station := none, length := 0, body := [], sum := 0, idle := 0, quiet := 0,
    coming := none, owed := none, sending := none }

/-- R195. -/
def NoticeQueue.reset : NoticeQueue := { records := [], overflow := false, attention := false }

/-- The part right after device reset (R196): every block at its reset values, STARTING, nothing waiting. -/
def State.reset : State :=
  { pending := []
    mode := .starting
    resetHeld := false
    pos := Vector.replicate 16 Position.reset
    link := Vector.replicate 16 Link.reset
    ec := Vector.replicate 16 Canceller.reset
    pool := Pool.reset
    lev := Vector.replicate 16 Level.reset
    params := LevelParams.reset
    mix := Vector.replicate 16 Mix.reset
    clip := Vector.replicate 128 Clip.empty
    slot := slotsReset
    prog := Vector.replicate 4 Programme.reset
    queue := Vector.replicate 16 []
    waitList := []
    store := Store.reset
    tmn := Timing.reset
    hwy := Highway.reset
    words := 0
    port := Port.reset
    callQ := NoticeQueue.reset
    floorQ := NoticeQueue.reset
    maintQ := NoticeQueue.reset }

end Sys2Proof.Machine
end

