-- ==== Sys2Proof/Machine/Operands.lean ====
section
/-! DEFINITION. The arithmetic that the chapters share (section 0.5.2), the fields of a command body and of a record
(R198), and the 8-bit sample law (R170, R171). -/

namespace Sys2Proof.Machine

/-! ### Arithmetic -/

/-- Saturating to 16 bits (section 0.5.2). -/
def sat16 (v : Int) : Int := if v < -32768 then -32768 else if 32767 < v then 32767 else v

/-- Saturating to 32 bits (section 0.5.2). -/
def sat32 (v : Int) : Int := if v < -2147483648 then -2147483648 else if 2147483647 < v then 2147483647 else v

/-- `a / b` rounded to the nearest integer, halves away from zero (section 0.5.2). -/
def roundDiv (a : Int) (b : Nat) : Int :=
  if 0 ≤ a then (2 * a + b) / (2 * b) else -((2 * (-a) + b) / (2 * b))

/-- A term of one sample and one gain code (section 0.5.3, R42). -/
def term (x : Int) (code : Nat) : Int := roundDiv (x * code) 8192

/-- Entry `w mod 16` of table T, shifted right by `w div 16` places (R43, R95). -/
def tableGain (w : Nat) : Nat := (Config.tableT.getD (w % 16) 0) / 2 ^ (w / 16)

/-- A value scaled by a factor of 32768ths, rounded (R43, R95). -/
def scaled (v : Int) (factor : Nat) : Int := roundDiv (v * factor) 32768

/-- The level of a positive integer (R94). -/
def lvl (z : Nat) : Nat := 8 * Nat.log2 z + (z - 2 ^ Nat.log2 z) * 8 / 2 ^ Nat.log2 z

/-- A value above a limit is replaced by the limit (R191). -/
def clampTo (most v : Nat) : Nat := if most < v then most else v

/-! ### Fields of a body or a record (R198): most significant byte first -/

/-- The byte of value `v`. -/
def toByte (v : Nat) : Byte := BitVec.ofNat 8 v

/-- The one-byte field at offset `i`. -/
def field1 (bs : List Byte) (i : Nat) : Nat := (bs.getD i 0).toNat

/-- The two-byte field at offset `i`. -/
def field2 (bs : List Byte) (i : Nat) : Nat := 256 * field1 bs i + field1 bs (i + 1)

/-- The three-byte field at offset `i`. -/
def field3 (bs : List Byte) (i : Nat) : Nat := 65536 * field1 bs i + field2 bs (i + 1)

def put1 (v : Nat) : List Byte := [toByte v]
def put2 (v : Nat) : List Byte := [toByte (v / 256), toByte v]
def put3 (v : Nat) : List Byte := [toByte (v / 65536), toByte (v / 256), toByte v]

/-- On/off and yes/no are 1 and 0 (R198). -/
def bit (b : Bool) : Nat := if b then 1 else 0

/-- A field that its presence rule makes absent is sent with every bit 1 (R198). -/
def putOpt1 (v : Option Nat) : List Byte := put1 (v.getD 255)
def putOpt2 (v : Option Nat) : List Byte := put2 (v.getD 65535)
def putOpt3 (v : Option Nat) : List Byte := put3 (v.getD 16777215)

/-- A list sent in `n` one-byte places, the places after its last entry absent (R198). -/
def putList (n : Nat) (l : List Nat) : List Byte := (List.range n).flatMap (fun i => putOpt1 l[i]?)

/-- The byte that makes the sum of the given bytes and itself 0 modulo 256 (R185, R189). -/
def checkByte (bs : List Byte) : Byte := - bs.foldl (· + ·) 0

/-! ### Characters of the Control Link (Table 11-1): the first bit on the wire is bit 0 -/

/-- The number of ones in a word. -/
def ones {n : Nat} (w : BitVec n) : Nat := ((List.range n).filter (fun i => w.getLsbD i)).length

/-- The data bits of a character, least significant first on the wire. -/
def charData (ch : BitVec 12) : Byte := ch.extractLsb' 1 8

/-- The marker: 1 for a header character. -/
def charMarker (ch : BitVec 12) : Bool := ch.getLsbD 9

/-- A character is good when its parity bit makes the number of ones in data and marker even and its stop bit is 1
(R184). -/
def charGood (ch : BitVec 12) : Bool := ones (ch.extractLsb' 1 10 : BitVec 10) % 2 == 0 && ch.getLsbD 11

/-- The bit times that the wire has been high at the end of a character: its last bits that are 1. -/
def highAfter (ch : BitVec 12) : Nat := (((List.range 12).map (fun i => ch.getLsbD (11 - i))).takeWhile id).length

/-- The bit times that the wire has been low at the end of a character: its last bits that are 0. -/
def lowAfter (ch : BitVec 12) : Nat := (((List.range 12).map (fun i => !ch.getLsbD (11 - i))).takeWhile id).length

/-- The good character with the given marker and data: start bit 0, data, marker, even parity, stop bit 1 (Table 11-1). -/
def character (marker : Bool) (d : Byte) : BitVec 12 :=
  let body : BitVec 9 := BitVec.ofBool marker ++ d
  (1 : BitVec 1) ++ BitVec.ofBool (ones body % 2 == 1) ++ body ++ (0 : BitVec 1)

/-! ### The sample law -/

/-- The sample that a byte of the sample law decodes to (R170). -/
def lawDecode (b : Byte) : Int :=
  let e := b.toNat / 16 % 8
  let m := b.toNat % 16
  let mag : Int := ((2 * m + 33) * 2 ^ e - 33) * 4
  if 128 ≤ b.toNat then -mag else mag

/-- The byte of the sample law that a sample encodes to (R171). -/
def lawEncode (v : Int) : Byte :=
  let s := if v < 0 then 1 else 0
  let q := v.natAbs / 4
  let a := (if 8158 < q then 8158 else q) + 33
  let e := Nat.log2 a - 5
  let m := a / 2 ^ (e + 1) - 16
  toByte (128 * s + 16 * e + m)

/-! ### Headset words (Table 12-6): the first bit sent is the highest -/

/-- The 16-bit two's-complement value of a sample. -/
def sampleBits (v : Int) : BitVec 16 := BitVec.ofInt 16 v

/-- The outbound word: earpiece sample, mute lamp, and a parity bit that makes the number of ones even (R155). -/
def outboundWord (e : Int) (lamp : Bool) : BitVec 18 :=
  let body : BitVec 17 := sampleBits e ++ BitVec.ofBool lamp
  body ++ BitVec.ofBool (ones body % 2 == 1)

/-- The fields of an inbound word: microphone sample, present bit, button bit (Table 12-6). -/
def inboundSample (w : BitVec 19) : Int := (w.extractLsb' 3 16).toInt
def inboundPresent (w : BitVec 19) : Bool := w.getLsbD 2
def inboundButton (w : BitVec 19) : Bool := w.getLsbD 1

/-- A word is bad when the number of its ones is odd or its present bit is 0 (R156). -/
def wordGood (w : BitVec 19) : Bool := ones w % 2 == 0 && inboundPresent w

end Sys2Proof.Machine
end

