-- ==== Sys2Proof/Machine/Flags.lean ====
section
/-! DEFINITION. The numbers that stand for named values in the formats (R198, section 12.2): each counts from 0 in
the order of the owning table. Then the status byte of a reply, with its clamped mark, and a notice record. -/

namespace Sys2Proof.Machine

/-- Table 12-3. -/
def kindCode : NoticeKind → Nat
  | .callReleased => 0 | .muteEffective => 1 | .buttonMute => 2 | .headsetUp => 3 | .headsetDown => 4
  | .promptEnded => 5 | .streamUnderrun => 6 | .clockFail => 7 | .clockLocked => 8 | .started => 9
  | .monitorEnded => 10 | .whisperEnded => 11 | .whisperFlushed => 12 | .tapShortfall => 13 | .tapGranted => 14
  | .programmeEnded => 15 | .programmeChanged => 16 | .clipFreed => 17 | .storeDone => 18

/-- Section 12.2. -/
def causeCode : Cause → Nat
  | .completed => 0 | .interrupted => 1 | .flushed => 2 | .stopped => 3 | .released => 4 | .noListeners => 5
  | .dropped => 6 | .unavailable => 7 | .supervisorCall => 8 | .callEnd => 9 | .lineLoss => 10 | .ok => 11
  | .timeout => 12 | .bad => 13 | .noStore => 14

/-- Table 11-4: DONE is 0 and LENGTH is 11 (section 12.1). -/
def statusCode : Status → Nat
  | .done => 0 | .taken => 1 | .busy => 2 | .role => 3 | .range => 4 | .state => 5 | .inUse => 6 | .noRoom => 7
  | .cls => 8 | .queueFull => 9 | .unknown => 10 | .length => 11

/-- Table 1-1. -/
def callCode : CallState → Nat
  | .free => 0 | .connected => 1 | .held => 2

/-- Table 12-4: relation form (monitored by, monitoring). -/
def formCode : RelationForm → Nat
  | .monitoredBy => 0 | .monitoring => 1

/-- Table 12-1: mode (LISTEN, WHISPER, BARGE). -/
def modeCode : MonitorMode → Nat
  | .listen => 0 | .whisper => 1 | .barge => 2

/-- Table 9-3. -/
def linkCode : LinkState → Nat
  | .down => 0 | .probing => 1 | .up => 2

/-- Table 4-1's order: OFF, ADAPTING, DOUBLE_TALK, QUIET_REF, FROZEN. Table 4-3 lists the same states in another order
(DESIGN CHOICE, log entry 44). -/
def cancellerCode : CancellerState → Nat
  | .off => 0 | .adapting => 1 | .doubleTalk => 2 | .quietRef => 3 | .frozen => 4

/-- Table 2-4. -/
def admissionCode : Admission → Nat
  | .append => 0 | .interrupt => 1

/-- Table 7-1. -/
def clipStateCode : ClipState → Nat
  | .empty => 0 | .active => 1 | .retiring => 2

/-- Table 12-1: class (MUSIC, WHISPER, CALLER). -/
def classCode : ClipClass → Nat
  | .music => 0 | .whisper => 1 | .caller => 2

/-- Table 7-2. -/
def streamCode : StreamState → Nat
  | .idle => 0 | .priming => 1 | .playing => 2 | .ending => 3 | .stopping => 4

/-- Table 7-2. -/
def streamKindCode : StreamKind → Nat
  | .programme => 0 | .whisper => 1 | .caller => 2

/-- Table 7-2. -/
def dirCode : RampDir → Nat
  | .falling => 0 | .rising => 1

/-- Table 12-3: STORE_DONE subject (ERASE, WRITE, SAVE). -/
def opCode : OpKind → Nat
  | .erase => 0 | .write => 1 | .save => 2

/-- Table 10-2. -/
def timingCode : TimingState → Nat
  | .freeRun => 0 | .acquiring => 1 | .locked => 2

/-- The class of a class byte (Table 12-1); none for a byte that names no class. -/
def classOf : Nat → Option ClipClass
  | 0 => some .music | 1 => some .whisper | 2 => some .caller | _ => none

/-- The mode of a mode byte of MONITOR (Table 12-1). -/
def modeOf : Nat → Option MonitorMode
  | 0 => some .listen | 1 => some .whisper | 2 => some .barge | _ => none

/-- The mode of a mode byte of WHISPER_PROMPT (Table 12-1). -/
def admissionOf : Nat → Option Admission
  | 0 => some .append | 1 => some .interrupt | _ => none

/-- The status byte: the status code in bits 6 to 0 and the clamped mark in bit 7 (section 12.1). -/
def statusByte (st : Status) (clamped : Bool) : Byte := toByte (statusCode st + 128 * bit clamped)

/-- A notice record of 9 bytes (Table 12-2). -/
def noticeBytes (n : Notice) : List Byte :=
  put1 (kindCode n.kind) ++ putOpt1 n.position ++ putOpt1 n.subject ++ putOpt1 (n.cause.map causeCode) ++
    putOpt3 n.value ++ put2 n.stamp

end Sys2Proof.Machine
end

