-- ==== Sys2Proof/Machine/Ops.lean ====
section
/-! DEFINITION. The operations that the chapters share over State: reading and writing one entry of a table, going
through the positions or slots in order, and posting a notice. -/

namespace Sys2Proof.Machine

/-! ### One entry of a table -/

def State.posAt (s : State) (p : Nat) : Position := tget s.pos p
def State.linkAt (s : State) (p : Nat) : Link := tget s.link p
def State.ecAt (s : State) (p : Nat) : Canceller := tget s.ec p
def State.levAt (s : State) (p : Nat) : Level := tget s.lev p
def State.mixAt (s : State) (p : Nat) : Mix := tget s.mix p
def State.clipAt (s : State) (c : Nat) : Clip := tget s.clip c
def State.slotAt (s : State) (i : Nat) : Slot := tget s.slot i
def State.progAt (s : State) (k : Nat) : Programme := tget s.prog k
def State.queueAt (s : State) (p : Nat) : List WhisperItem := tget s.queue p
def State.segsOf (s : State) (p : Nat) : List Nat := tget s.pool.lists p
def State.segAt (s : State) (g : Nat) : Segment := tget s.pool.segs g

def State.modPos (s : State) (p : Nat) (f : Position → Position) : State := { s with pos := tmod s.pos p f }
def State.modLink (s : State) (p : Nat) (f : Link → Link) : State := { s with link := tmod s.link p f }
def State.modEc (s : State) (p : Nat) (f : Canceller → Canceller) : State := { s with ec := tmod s.ec p f }
def State.modLev (s : State) (p : Nat) (f : Level → Level) : State := { s with lev := tmod s.lev p f }
def State.modMix (s : State) (p : Nat) (f : Mix → Mix) : State := { s with mix := tmod s.mix p f }
def State.modClip (s : State) (c : Nat) (f : Clip → Clip) : State := { s with clip := tmod s.clip c f }
def State.modSlot (s : State) (i : Nat) (f : Slot → Slot) : State := { s with slot := tmod s.slot i f }
def State.modProg (s : State) (k : Nat) (f : Programme → Programme) : State := { s with prog := tmod s.prog k f }
def State.setQueue (s : State) (p : Nat) (q : List WhisperItem) : State := { s with queue := tset s.queue p q }
def State.modSegs (s : State) (p : Nat) (f : List Nat → List Nat) : State :=
  { s with pool := { s.pool with lists := tmod s.pool.lists p f } }
def State.modSeg (s : State) (g : Nat) (f : Segment → Segment) : State :=
  { s with pool := { s.pool with segs := tmod s.pool.segs g f } }
def State.setShort (s : State) (l : List Nat) : State := { s with pool := { s.pool with short := l } }
def State.setWait (s : State) (l : List Nat) : State := { s with waitList := l }
def State.modStore (s : State) (f : Store → Store) : State := { s with store := f s.store }
def State.modTmn (s : State) (f : Timing → Timing) : State := { s with tmn := f s.tmn }
def State.setWords (s : State) (n : Nat) : State := { s with words := n }
def State.modPort (s : State) (f : Port → Port) : State := { s with port := f s.port }

/-- Runs `f` for each of the positions P0 to P15, in increasing number. -/
def forPositions (f : Nat → State → State) (s : State) : State := (List.range 16).foldl (fun s p => f p s) s

/-- Runs `f` for each of the stream slots S0 to S23, in increasing number. -/
def forSlots (f : Nat → State → State) (s : State) : State := (List.range 24).foldl (fun s i => f i s) s

/-! ### Notices (R193, R195) -/

/-- A queue with a record joined at its tail; at a full queue the record is discarded and the overflow flag set. The
attention line is asserted, unless the reset pin holds it (R196). -/
def NoticeQueue.push (n : Notice) (pinHeld : Bool) (q : NoticeQueue) : NoticeQueue :=
  if q.records.length < Config.queueRoom then { q with records := q.records ++ [n], attention := !pinHeld }
  else { q with overflow := true }

/-- The notice queue of a role (Table 11-3). -/
def State.noticesOf (s : State) : Role → NoticeQueue
  | .call => s.callQ
  | .floor => s.floorQ
  | .maint => s.maintQ

/-- The state with the notice queue of a role replaced. -/
def State.setNotices (s : State) (r : Role) (q : NoticeQueue) : State :=
  match r with
  | .call => { s with callQ := q }
  | .floor => { s with floorQ := q }
  | .maint => { s with maintQ := q }

/-- Posts one notice to the queue of a role, stamped with the block count as it stands (R193). -/
def State.post (s : State) (r : Role) (kind : NoticeKind) (position subject : Option Nat) (cause : Option Cause)
    (value : Option Nat) : State :=
  s.setNotices r ((s.noticesOf r).push
    { kind := kind, position := position, subject := subject, cause := cause, value := value,
      stamp := s.tmn.blockCount } s.resetHeld)

end Sys2Proof.Machine
end

