-- ==== Sys2Proof/Machine/Port.lean ====
section
/-! DEFINITION. The Control Link Port's shared operations (chapter 11): taking a command frame, with the checks that
come before any block's own (R188), and the reply it owes (R189). -/

namespace Sys2Proof.Machine

/-- The answer of a command: its status, its clamped mark and its data; `waiting` for a STORE_READ, whose outcome
comes later (R189). -/
structure Answer where
  status : Status
  clamped : Bool := false
  data : List Byte := []
  waiting : Bool := false
  deriving DecidableEq, Repr

def Answer.done : Answer := { status := .done }

/-- DONE, marked clamped when a field was replaced (R191). -/
def Answer.clampedDone (c : Bool) : Answer := { status := .done, clamped := c }

/-- DONE with data. -/
def Answer.doneWith (d : List Byte) : Answer := { status := .done, data := d }

/-- A refusal, or any other bare status. -/
def Answer.bare (st : Status) : Answer := { status := st }

/-- The station role table (Table 11-3). -/
def stationRole : Station → Option Role
  | .st1 | .st2 => some .call
  | .st3 => some .floor
  | .st4 => some .maint
  | .st5 | .st6 | .st7 => none

/-- The receiver in SLEEP, with nothing kept of a frame (R185 to R187) (DEDUCED, log entry 26). -/
def Port.toSleep (q : Port) : Port :=
  { q with state := .sleep, station := none, length := 0, body := [], sum := 0, idle := 0 }

/-- When a fetch or a read lets go of the store link, the activity is ERASE_SUSPENDED if an erase is paused, and
IDLE otherwise (R141, R144, R147). -/
def Store.released (u : Store) : LinkActivity :=
  match u.op with
  | some o => if o.phase = .suspending ∨ o.phase = .suspended then .eraseSuspended else .idle
  | none => .idle

/-- The pending read is removed; if it held the link, the link is free again (R147). -/
def Store.dropRead (u : Store) : Store :=
  match u.read with
  | some r => { u with read := none, activity := if r.holding then u.released else u.activity }
  | none => u

/-- The port after a frame is accepted: the receiver in SLEEP (R185), a reply owed and not begun dropped, and an
unanswered STORE_READ withdrawn (R189) (DEDUCED, log entry 21). Its check character has ended, and the 12 bit times before
a reply are counted from here. -/
def State.accepted (s : State) : State :=
  (s.modPort (fun q => { q.toSleep with quiet := 0, coming := none, owed := none })).modStore Store.dropRead

/-- The reply that an accepted frame owes (R189). -/
def State.owe (s : State) (st : Station) (code : Byte) (a : Answer) : State :=
  let o : Owed :=
    { station := st, code := code, status := a.status, clamped := a.clamped, data := a.data, waiting := a.waiting,
      clock := 0 }
  s.modPort (fun q => { q with owed := some o })

/-- Takes an accepted frame (R188): the sender's role against the command's roles, the body length, the STARTING
state, in this order; then the block that owns the command acts at the same event. A refusal changes no block. -/
def takeFrame (st : Station) (code : Byte) (roles : List Role) (lengthFits whileStarting : Bool)
    (core : Role → State → State × Answer) (s : State) : State :=
  let s := s.accepted
  match stationRole st with
  | none => s.owe st code (.bare .role)
  | some r =>
    if r ∉ roles then s.owe st code (.bare .role)
    else if !lengthFits then s.owe st code (.bare .length)
    else if s.mode = .starting ∧ !whileStarting then s.owe st code (.bare .busy)
    else
      let (s', a) := core r s
      s'.owe st code a

/-- Every role: the READ commands and FETCH_NOTICES (Table 11-5). -/
def everyRole : List Role := [.call, .floor, .maint]

/-- A reply frame (R189, section 12.1): header with the part's address and station 0, length, code, status, data and
check byte. -/
def replyFrame (address : BitVec 5) (o : Owed) : List Byte :=
  let body := o.code :: statusByte o.status o.clamped :: o.data
  let front := toByte (address.toNat * 8) :: toByte body.length :: body
  front ++ [checkByte front]

end Sys2Proof.Machine
end

