-- ==== Sys2Proof/Machine/TapPool.lean ====
section
/-! DEFINITION. The Tap Pool (chapter 5): granting and freeing coefficient segments, the shortfall list, and what a
changed request or a changed headset link does. -/

namespace Sys2Proof.Machine

/-- The lowest-numbered free segment (R83). -/
def State.freeSeg (s : State) : Option Nat := (List.range 64).find? (fun g => (s.segAt g).owner.isNone)

/-- The free count (Table 5-1). -/
def State.freeCount (s : State) : Nat := ((List.range 64).filter (fun g => (s.segAt g).owner.isNone)).length

/-- The granted count of a position (Table 5-1). -/
def State.granted (s : State) (p : Nat) : Nat := (s.segsOf p).length

/-- Segment `g` gets `p` as its owner and joins the tail of p's list; a free segment holds zeros (R80, R83). -/
def grantSeg (p g : Nat) (s : State) : State :=
  (s.modSeg g (fun x => { x with owner := some p })).modSegs p (fun l => l ++ [g])

/-- Segment `g` becomes free and its coefficients 0 (R80). -/
def freeSegment (g : Nat) (s : State) : State := s.modSeg g (fun _ => Segment.free)

/-- Appends up to `n` free segments to p's list, the lowest-numbered first (R83). -/
def grantUpTo (p : Nat) : Nat → State → State
  | 0, s => s
  | n + 1, s =>
    match s.freeSeg with
    | none => s
    | some g => grantUpTo p n (grantSeg p g s)

/-- Removes `n` segments from the tail of p's list and frees them (R84). -/
def freeTail (p : Nat) : Nat → State → State
  | 0, s => s
  | n + 1, s =>
    match (s.segsOf p).getLast? with
    | none => s
    | some g => freeTail p n (freeSegment g (s.modSegs p List.dropLast))

/-- TAP_SHORTFALL: the value is the request times 256 plus the granted count (R91, Table 12-3). -/
def postShortfall (p : Nat) (s : State) : State :=
  s.post .maint .tapShortfall (some p) none none (some ((s.ecAt p).request * 256 + s.granted p))

/-- Free segments are granted one at a time to the head of the shortfall list; a satisfied head leaves the list and
MAINT gets TAP_GRANTED (R88). The number bounds the segments that can be granted. -/
def serveShortfall : Nat → State → State
  | 0, s => s
  | n + 1, s =>
    match s.pool.short, s.freeSeg with
    | p :: rest, some g =>
      let s := grantSeg p g s
      if (s.ecAt p).request ≤ s.granted p then
        serveShortfall n ((s.setShort rest).post .maint .tapGranted (some p) none none (some (s.granted p)))
      else serveShortfall n s
    | _, _ => s

/-- Freed segments go to the waiting positions: at most 64 grants (R88). -/
def serveShort (s : State) : State := serveShortfall 64 s

/-- The request of `p` is served from the free segments; a position left short joins the shortfall list, or keeps its
place, and MAINT gets TAP_SHORTFALL (R83, R86). -/
def servePosition (p : Nat) (s : State) : State :=
  let s := grantUpTo p ((s.ecAt p).request - s.granted p) s
  if s.granted p < (s.ecAt p).request then
    postShortfall p (if p ∈ s.pool.short then s else s.setShort (s.pool.short ++ [p]))
  else s.setShort (s.pool.short.erase p)

/-- SET_EC stores the tap request `r` of `p` and hands it to the pool (R83 to R85). -/
def setRequest (p r : Nat) (s : State) : State :=
  if r = (s.ecAt p).request then s
  else
    let s := s.modEc p (fun c => { c with request := r })
    if (s.linkAt p).state ≠ .up then s
    else if s.granted p < r then servePosition p s
    else
      let s := s.setShort (s.pool.short.erase p)
      serveShort (freeTail p (s.granted p - r) s)

/-- The link of `p` has come UP (R86). A request of 0 grants nothing. -/
def poolLinkUp (p : Nat) (s : State) : State := servePosition p s

/-- The link of `p` has left UP: every segment of `p` is freed and the waiting positions are served (R87). -/
def poolLinkDown (p : Nat) (s : State) : State :=
  let s := s.setShort (s.pool.short.erase p)
  serveShort (freeTail p (s.granted p) s)

end Sys2Proof.Machine
end

