-- ==== Sys2Proof/Machine/Canceller.lean ====
section
/-! DEFINITION. Echo cancellation (chapter 4): one arrival of a position's canceller, and the commands SET_EC and
RESET_EC. -/

namespace Sys2Proof.Machine

/-- The filter length of `p`: 32 times the segments it holds (R60). -/
def State.filterLength (s : State) (p : Nat) : Nat := Config.segmentTaps * s.granted p

/-- The coefficients of `p` in the order of its segment list (R60). -/
def State.coeffs (s : State) (p : Nat) : List Int := (s.segsOf p).flatMap (fun g => (s.segAt g).coeffs)

/-- The working tap of a coefficient: shifted right by 16 places, rounded down (R62). -/
def workingTap (c : Int) : Int := c / 65536

/-- The exact sum of the products of two lists, place by place. -/
def dot (a b : List Int) : Int := (List.zipWith (· * ·) a b).sum

/-- The echo estimate (R62). -/
def echoEstimate (coeffs xs : List Int) : Int := sat16 (roundDiv (dot (coeffs.map workingTap) xs) 32768)

/-- The sum of the squares of a window. -/
def powerOf (xs : List Int) : Int := (xs.map (fun x => x * x)).sum

/-- The largest magnitude of a window; that of -32768 is 32768 (R63). -/
def peakOf (xs : List Int) : Nat := xs.foldl (fun m x => max m x.natAbs) 0

/-- The power sum at an arrival with window `xs`: brought up to date when the length is that of the last running
arrival, and formed in full otherwise (R63, R89). -/
def Canceller.powerNow (c : Canceller) (len : Nat) : Int :=
  if c.window = len then
    let old := c.history.getD len c.gone
    c.power + c.history.headD 0 * c.history.headD 0 - old * old
  else powerOf (c.history.take len)

/-- The state of the frame and the hangover after it, by the tests of R64 in their order. -/
def Canceller.judge (c : Canceller) (peak : Nat) (d : Int) : CancellerState × Nat :=
  if c.freeze then (.frozen, c.hangover)
  else if peak < 64 then (.quietRef, c.hangover)
  else if peak < d.natAbs * 2 ^ c.shift then (.doubleTalk, Config.hangoverTop)
  else if 0 < c.hangover then (.doubleTalk, c.hangover - 1)
  else (.adapting, c.hangover)

/-- The update gain: step times error times 2^26 over power plus bias, truncated toward zero (R67). -/
def updateGain (step : Nat) (e power : Int) (len : Nat) : Int :=
  Int.tdiv (step * e * 67108864) (power + 256 * len)

/-- The update of the coefficients of one segment over its 32 history values (R67). -/
def updateTaps (g : Int) (coeffs xs : List Int) : List Int := List.zipWith (fun c x => sat32 (c + g * x)) coeffs xs

/-- The update of every segment of `p`, entry by entry of its list (R60, R67). -/
def updateSegs (g : Int) (hist : List Int) : Nat → List Nat → State → State
  | _, [], s => s
  | i, sg :: rest, s =>
    updateSegs g hist (i + 1) rest
      (s.modSeg sg (fun x =>
        { x with coeffs := updateTaps g x.coeffs ((hist.drop (Config.segmentTaps * i)).take Config.segmentTaps) }))

/-- One arrival of a microphone sample `d` at p's canceller (R61 to R67): the state after it and the cancelled
sample that is handed on. -/
def cancel (p : Nat) (d : Int) (s : State) : State × Int :=
  let c := s.ecAt p
  let len := s.filterLength p
  if (s.linkAt p).state ≠ .up then (s.modEc p (fun c => { c with state := .off, window := 0 }), 0)
  else if len = 0 then (s.modEc p (fun c => { c with state := .off, window := 0 }), d)
  else
    let xs := c.history.take len
    let e := sat16 (d - echoEstimate (s.coeffs p) xs)
    let power := c.powerNow len
    let (st, hang) := c.judge (peakOf xs) d
    let s' := s.modEc p (fun c => { c with power := power, window := len, state := st, hangover := hang })
    if st = .adapting then (updateSegs (updateGain c.step e power len) c.history 0 (s.segsOf p) s', e)
    else (s', e)

/-- The coefficients of `p` and its hangover are set to 0 (R74, R75). -/
def zeroCanceller (p : Nat) (s : State) : State :=
  ((s.segsOf p).foldl (fun s g => s.modSeg g (fun x => { x with coeffs := Segment.free.coeffs })) s).modEc p
    (fun c => { c with hangover := 0 })

/-- SET_EC(p, step, shift, freeze, taps): R70, Table 4-6. -/
def setEcCore (ps : List Byte) (s : State) : State × Answer :=
  let p := field1 ps 0
  let step := field1 ps 1
  let shift := field1 ps 2
  let fr := field1 ps 3
  let taps := field1 ps 4
  if 15 < p then (s, .bare .range)
  else
    let s' := s.modEc p (fun c =>
      { c with step := if step = 0 then 1 else clampTo 32 step, shift := clampTo 4 shift, freeze := fr != 0 })
    (setRequest p (clampTo 8 taps) s', .clampedDone (step == 0 || 32 < step || 4 < shift || 1 < fr || 8 < taps))

/-- RESET_EC(p): R74. -/
def resetEcCore (ps : List Byte) (s : State) : State × Answer :=
  let p := field1 ps 0
  if 15 < p then (s, .bare .range) else (zeroCanceller p s, .done)

def cmdSetEc (st : Station) (ps : List Byte) : State → State :=
  takeFrame st 0x30 [.maint] (ps.length == 5) false (fun _ => setEcCore ps)
def cmdResetEc (st : Station) (ps : List Byte) : State → State :=
  takeFrame st 0x31 [.maint] (ps.length == 1) false (fun _ => resetEcCore ps)

/-- SET_EC: an accepted frame with code 0x30 (R70). -/
def execSetEc (st : Station) (params : List Byte) (s : State) : Host.Outcome State Fault Refusal :=
  .next (cmdSetEc st params s)
/-- RESET_EC: an accepted frame with code 0x31 (R74). -/
def execResetEc (st : Station) (params : List Byte) (s : State) : Host.Outcome State Fault Refusal :=
  .next (cmdResetEc st params s)

end Sys2Proof.Machine
end

