-- ==== Sys2Proof/Machine/Streams.lean ====
section
/-! DEFINITION. The Playback Engine's shared operations (chapter 7): starting and stopping a stream, a slot reaching
IDLE and what follows from it, the slot wait list, and a change of a programme's listener count. -/

namespace Sys2Proof.Machine

/-- The general slots S4 to S23 (R117). -/
def generalSlots : List Nat := (List.range 20).map (· + 4)

/-- The general slot that is not IDLE and plays the stream of kind `k` of position `p` (R41, R117). -/
def State.streamOf (s : State) (k : StreamKind) (p : Nat) : Option Nat :=
  generalSlots.find? (fun i => (s.slotAt i).state ≠ .idle ∧ (s.slotAt i).kind = some k ∧ (s.slotAt i).target = some p)

/-- The lowest-numbered free general slot (R126, R129). -/
def State.freeSlot (s : State) : Option Nat := generalSlots.find? (fun i => (s.slotAt i).state = .idle)

/-- PRIMING, PLAYING or ENDING: the states a stop acts on, and in which a whisper stream is a source (R53, R125). -/
def StreamState.sounding : StreamState → Bool
  | .priming | .playing | .ending => true
  | .idle | .stopping => false

/-! ### Use counts (R116) -/

def useUp (c : Nat) (s : State) : State := s.modClip c (fun e => { e with use := e.use + 1 })

/-- The use count falls; a RETIRING entry that reaches 0 becomes EMPTY and MAINT gets CLIP_FREED. -/
def useDown (c : Nat) (s : State) : State :=
  let e := s.clipAt c
  if e.state = .retiring ∧ e.use ≤ 1 then
    (s.modClip c (fun _ => Clip.empty)).post .maint .clipFreed none (some c) none none
  else s.modClip c (fun e => { e with use := e.use - 1 })

/-! ### Start and stop -/

/-- What a slot becomes when a stream starts in it, with the sample it yielded last (R118). -/
def Slot.started (k : StreamKind) (target c : Nat) (b : ClipBody) (gain : Nat) (repeats : Option Nat)
    (hears : Option Bool) (out : Int) : Slot :=
  { state := .priming, kind := some k, target := some target, clip := some c, addr := b.start, left := b.length,
    buffer := [], repeats := repeats, hears := hears, gain := some gain, ramp := Config.rampTop, dir := none,
    begun := false, cause := none, underrun := false, out := out }

/-- The sample that stands for a new stream's slot in the frame in progress: a programme's slot goes on yielding for its
programme (R117, R122), and a general slot has yielded nothing for the new stream, so that no sample of an earlier
stream reaches another position (R41, R52) (DEDUCED, log entry 18). -/
def Slot.carried (k : StreamKind) (x : Slot) : Int := if k = .programme then x.out else 0

/-- A stream starts in slot `i` on clip `c` (R118). -/
def startStream (i : Nat) (k : StreamKind) (target c gain : Nat) (repeats : Option Nat) (hears : Option Bool)
    (s : State) : State :=
  match (s.clipAt c).body with
  | none => s
  | some b => (useUp c s).modSlot i (fun x => Slot.started k target c b gain repeats hears (x.carried k))

/-- What a stop makes of a slot (R125). -/
def Slot.stop (c : Cause) (x : Slot) : Slot :=
  if x.state.sounding then { x with state := .stopping, dir := some .falling, cause := some c }
  else if x.state = .stopping ∧ x.dir = some .rising then
    { x with dir := some .falling, cause := some .noListeners }
  else x

def stopSlot (i : Nat) (c : Cause) (s : State) : State := s.modSlot i (Slot.stop c)

/-! ### Leaving priming (R121) -/

/-- A PRIMING slot whose fill is 128 or more, or that has nothing left to fetch, leaves priming. -/
def Slot.primed (x : Slot) : Slot :=
  if x.state = .priming ∧ (Config.primeFill ≤ x.buffer.length ∨ x.left = 0) then
    { x with state := if x.left = 0 then .ending else .playing, begun := true }
  else x

/-! ### The whisper queue's head and the slot wait list (R37, R38, R129, R130) -/

/-- A whisper item's clip may start: ACTIVE, of class WHISPER, unfenced (R38). -/
def State.whisperUsable (s : State) (c : Nat) : Bool :=
  let e := s.clipAt c
  e.state == .active && (e.body.map (·.cls)) == some .whisper && !e.fenced

/-- Gives slot `i` to position `p`, whose queue is the given list: the first usable item starts there and the items
before it are removed with WHISPER_ENDED cause UNAVAILABLE (R37, R38). The Bool says whether a stream started. -/
def startHead (p i : Nat) : List WhisperItem → State → Bool × State
  | [], s => (false, s.setQueue p [])
  | it :: rest, s =>
    if s.whisperUsable it.clip then
      (true, startStream i .whisper p it.clip it.gain none none (s.setQueue p rest))
    else startHead p i rest (s.post .floor .whisperEnded (some p) (some it.clip) (some .unavailable) none)

/-- A freed general slot is offered to the positions of the wait list in order (R130). -/
def serveWaiting (i : Nat) : List Nat → State → State
  | [], s => s.setWait []
  | p :: ps, s =>
    match startHead p i (s.queueAt p) (s.setWait ps) with
    | (true, s') => s'
    | (false, s') => serveWaiting i ps s'

/-- If the head of p's whisper queue is ready (R37), p is given the lowest free general slot, or joins the tail of
the wait list (R129). A slot that p gives up is handled as a freed slot (R38). -/
def headReady (p : Nat) (s : State) : State :=
  if s.queueAt p = [] ∨ (s.streamOf .whisper p).isSome ∨ p ∈ s.waitList then s
  else
    match s.freeSlot with
    | none => s.setWait (s.waitList ++ [p])
    | some i =>
      match startHead p i (s.queueAt p) s with
      | (true, s') => s'
      | (false, s') => serveWaiting i s'.waitList s'

/-! ### A slot reaches IDLE (R123, R135) -/

/-- The end notice of a stream (Table 7-8). -/
def postEnded (x : Slot) (cause : Cause) (s : State) : State :=
  match x.kind with
  | some .whisper => s.post .floor .whisperEnded x.target x.clip (some cause) none
  | some .caller => s.post .call .promptEnded x.target x.clip (some cause) none
  | some .programme => s.post .maint .programmeEnded none x.target (some cause) x.clip
  | none => s

/-- The data of a fetch begun for a stream that has ended is discarded at its arrival (R119). -/
def dropFetchOf (i : Nat) (s : State) : State :=
  s.modStore (fun u => { u with fetch := u.fetch.map (fun f => if f.slot = i then { f with live := false } else f) })

/-- The pending change of programme `k` is applied (R135); MAINT gets PROGRAMME_CHANGED. -/
def applyPending (k : Nat) (s : State) : State :=
  match (s.progAt k).pending with
  | .empty => s
  | .clip c => (s.modProg k (fun g => { g with clip := some c, pending := .empty })).post .maint .programmeChanged none
      (some k) none (some c)
  | .none => (s.modProg k (fun g => { g with clip := none, pending := .empty })).post .maint .programmeChanged none
      (some k) none none

/-- The programme's stream starts on its current clip, if it has one (R118, R133 to R135). -/
def startProgramme (k : Nat) (s : State) : State :=
  match (s.progAt k).clip with
  | none => s
  | some c => startStream k .programme k c Config.unity none none s

/-- A programme slot at IDLE: its pending change, and a new stream if there are listeners (R135). -/
def settleProgramme (k : Nat) (s : State) : State :=
  let s := applyPending k s
  if 0 < (s.progAt k).listeners then startProgramme k s else s

/-- Slot `i` reaches IDLE with the given cause (R123) (DEDUCED, log entry 33). -/
def reachIdle (i : Nat) (cause : Cause) (s : State) : State :=
  let x := s.slotAt i
  let s := postEnded x cause s
  let s := match x.clip with
    | some c => useDown c s
    | none => s
  let s := dropFetchOf i (s.modSlot i (fun y => { Slot.fresh i with out := y.out }))
  match x.kind, x.target with
  | some .whisper, some p => headReady p (serveWaiting i s.waitList s)
  | some .caller, _ => serveWaiting i s.waitList s
  | some .programme, _ => settleProgramme i s
  | _, _ => s

/-! ### Listener counts (R133) -/

/-- What a rise of the listener count from 0 makes of a STOPPING slot (R133). -/
def Slot.reversed (x : Slot) : Slot :=
  if x.begun then
    if x.ramp = Config.rampTop then { x with state := .playing, dir := none, cause := none }
    else { x with dir := some .rising, cause := none }
  else Slot.primed { x with state := .priming, ramp := Config.rampTop, dir := none, cause := none }

def listenerUp (k : Nat) (s : State) : State :=
  let before := (s.progAt k).listeners
  let s := s.modProg k (fun g => { g with listeners := g.listeners + 1 })
  if before = 0 ∧ (s.progAt k).clip.isSome then
    match (s.slotAt k).state with
    | .idle => startProgramme k s
    | .stopping => s.modSlot k Slot.reversed
    | _ => s
  else s

def listenerDown (k : Nat) (s : State) : State :=
  let s := s.modProg k (fun g => { g with listeners := g.listeners - 1 })
  if (s.progAt k).listeners = 0 then stopSlot k .noListeners s else s

/-! ### Whisper flush (R39, R13) -/

/-- The number that a flush of position `p` reports: its waiting items, and one for a whisper stream it stops. -/
def flushCount (p : Nat) (s : State) : Nat :=
  (s.queueAt p).length +
    (match s.streamOf .whisper p with
     | some i => bit (s.slotAt i).state.sounding
     | none => 0)

/-- The whisper queue of `p` is emptied, `p` leaves the wait list, its whisper stream is stopped with cause FLUSHED,
and FLOOR gets WHISPER_FLUSHED when the count is at least 1. -/
def flushWhispers (p : Nat) (s : State) : State :=
  let n := flushCount p s
  let s := (s.setQueue p []).setWait (s.waitList.erase p)
  let s := match s.streamOf .whisper p with
    | some i => stopSlot i .flushed s
    | none => s
  if 1 ≤ n then s.post .floor .whisperFlushed (some p) none none (some n) else s

/-- The caller stream of `p` is stopped with the given cause (R125). -/
def stopCaller (p : Nat) (c : Cause) (s : State) : State :=
  match s.streamOf .caller p with
  | some i => stopSlot i c s
  | none => s

/-! ### One frame of a slot (R122, R124) -/

/-- The first frame of an underrun episode posts STREAM_UNDERRUN with the slot, its target and its clip. -/
def postUnderrun (i : Nat) (x : Slot) (s : State) : State :=
  match x.kind with
  | some .whisper => s.post .floor .streamUnderrun x.target (some i) none x.clip
  | some .caller => s.post .call .streamUnderrun x.target (some i) none x.clip
  | some .programme => s.post .maint .streamUnderrun none (some i) none x.clip
  | none => s

/-- The ramp of a STOPPING slot after one step in its direction (R122). -/
def Slot.stepRamp (x : Slot) : Nat :=
  match x.dir with
  | some .rising => if x.ramp < Config.rampTop then x.ramp + 1 else x.ramp
  | _ => x.ramp - 1

/-- The slot takes the oldest sample of its buffer and yields the given output. -/
def Slot.taken (y : Int) (x : Slot) : Slot := { x with buffer := x.buffer.tail, out := y }

/-- The frame's work of a STOPPING slot (R122). A rising slot, which has no stop cause, and which takes its last sample ends
with cause COMPLETED: no run has one, since a pass end turns it to falling (R120) (DESIGN CHOICE, log entry 45). -/
def stoppingFrame (i : Nat) (s : State) : State :=
  let x := s.slotAt i
  let r := x.stepRamp
  let y := if x.begun then roundDiv (x.buffer.headD 0 * r) Config.rampTop else 0
  let last := x.begun ∧ x.buffer.length = 1 ∧ x.left = 0
  let s := s.modSlot i (fun x => { (if x.begun then x.taken y else { x with out := 0 }) with ramp := r })
  if last ∨ (x.dir ≠ some .rising ∧ r = 0) then reachIdle i (x.cause.getD .completed) s
  else if x.dir = some .rising ∧ r = Config.rampTop then
    s.modSlot i (fun x => { x with state := .playing, dir := none, cause := none })
  else s

/-- The frame's work of slot `i` (R122). -/
def slotFrame (i : Nat) (s : State) : State :=
  let x := s.slotAt i
  match x.state with
  | .idle | .priming => s.modSlot i (fun x => { x with out := 0 })
  | .playing =>
    match x.buffer with
    | [] =>
      let s' := s.modSlot i (fun x => { x with out := 0, underrun := true })
      if x.underrun then s' else postUnderrun i x s'
    | y :: _ => s.modSlot i (Slot.taken y)
  | .ending =>
    let s := s.modSlot i (Slot.taken (x.buffer.headD 0))
    if x.buffer.length ≤ 1 then reachIdle i .completed s else s
  | .stopping => stoppingFrame i s

end Sys2Proof.Machine
end

