-- ==== Sys2Proof/Machine/Calls.lean ====
section
/-! DEFINITION. The Position Table and the call commands (chapter 1): CONNECT, HOLD, RESUME, RELEASE, MUTE,
SET_CALL_GAINS and SET_SIDETONE, with teardown and forced release, and the effective mute. -/

namespace Sys2Proof.Machine

/-! ### Mutes (R16 to R20) -/

/-- The effective mute is recomputed as commanded mute OR button mute (R18). The ramp's target follows from it. -/
def Position.remute (x : Position) : Position := { x with effMute := x.cmdMute || x.btnMute }

/-- The target of the mute ramp (R19). -/
def Position.rampTarget (x : Position) : Nat := if x.effMute then 0 else Config.rampTop

/-- One step of the mute ramp toward its target (R19). -/
def Position.stepRamp (x : Position) : Position :=
  if x.ramp < x.rampTarget then { x with ramp := x.ramp + 1 }
  else if x.rampTarget < x.ramp then { x with ramp := x.ramp - 1 }
  else x

/-- The frame's step of p's mute ramp; a step that reaches the target posts MUTE_EFFECTIVE (R20). -/
def muteStep (p : Nat) (s : State) : State :=
  let x := s.posAt p
  let s' := s.modPos p Position.stepRamp
  if x.ramp ≠ x.rampTarget ∧ x.stepRamp.ramp = x.rampTarget then
    s'.post .call .muteEffective (some p) none none (some (bit x.effMute))
  else s'

/-- A debounced press toggles button mute (R17, R164). -/
def pressButton (p : Nat) (s : State) : State :=
  let s := s.modPos p (fun x => Position.remute { x with btnMute := !x.btnMute })
  s.post .call .buttonMute (some p) none none (some (bit (s.posAt p).btnMute))

/-! ### Relations, teardown, forced release (R7, R13, R14) -/

/-- The relation of `a` and `b` is removed from both records. -/
def unrelate (a b : Nat) (s : State) : State :=
  (s.modPos a (fun x => { x with relation := none })).modPos b (fun x => { x with relation := none })

/-- The supervisor that monitors `a`, if any. -/
def State.supervisorOf (s : State) (a : Nat) : Option Nat :=
  match (s.posAt a).relation with
  | some r => if r.form = .monitoredBy then some r.other else none
  | none => none

/-- The agent that `p` monitors, if any. -/
def State.agentOf (s : State) (p : Nat) : Option Nat :=
  match (s.posAt p).relation with
  | some r => if r.form = .monitoring then some r.other else none
  | none => none

/-- The relation in which `a` is the agent ends and FLOOR gets MONITOR_ENDED with the cause. -/
def endMonitoring (a : Nat) (c : Cause) (s : State) : State :=
  match s.supervisorOf a with
  | some b => (unrelate a b s).post .floor .monitorEnded (some a) none (some c) (some b)
  | none => s

/-- Step 6 of a teardown: both mutes off and the ramp at 40 at once (R13). -/
def Position.unmuted (x : Position) : Position :=
  { x with cmdMute := false, btnMute := false, effMute := false, ramp := Config.rampTop }

/-- Teardown of a CONNECTED or HELD position with its cause, in the order of R13. -/
def teardown (p : Nat) (c : Cause) (s : State) : State :=
  let k := (s.posAt p).hold
  let s := s.modPos p (fun x => { x with call := .free, binding := none, hold := none })
  let s := match k with
    | some k => listenerDown k s
    | none => s
  let s := endMonitoring p c s
  let s := flushWhispers p s
  let s := stopCaller p .released s
  s.modPos p Position.unmuted

/-- Forced release: every CONNECTED or HELD position is torn down with cause LINE_LOSS, P0 to P15 (R14)
(DEDUCED, log entry 36). -/
def forcedRelease (s : State) : State :=
  forPositions (fun p s =>
    if (s.posAt p).call = .free then s
    else (teardown p .lineLoss s).post .call .callReleased (some p) none (some .lineLoss) none) s

/-! ### The call commands -/

/-- Another position is bound to send timeslot `tx` (R6). -/
def State.txTaken (s : State) (p tx : Nat) : Bool :=
  (List.range 16).any (fun q => q != p && ((s.posAt q).binding.map (·.tx)) == some tx)

/-- CONNECT that passes its checks: a supervisor-side relation of `p` ends first (R7), then the call is set up (R5). -/
def connectTaken (p rx tx : Nat) (s : State) : State :=
  let s := match s.agentOf p with
    | some a => (unrelate a p s).post .floor .monitorEnded (some a) none (some .supervisorCall) (some p)
    | none => s
  s.modPos p (fun x => { x with call := .connected, binding := some { rx := rx, tx := tx } })

/-- CONNECT(p, rx, tx): R4 to R7. -/
def connectCore (ps : List Byte) (s : State) : State × Answer :=
  let p := field1 ps 0
  let rx := field1 ps 1
  let tx := field1 ps 2
  if 15 < p ∨ 31 < rx ∨ 31 < tx then (s, .bare .range)
  else if (s.posAt p).call ≠ .free then (s, .bare .state)
  else if s.txTaken p tx then (s, .bare .inUse)
  else (connectTaken p rx tx s, .done)

/-- HOLD(p, k): R9, R10. -/
def holdCore (ps : List Byte) (s : State) : State × Answer :=
  let p := field1 ps 0
  let k := field1 ps 1
  if 15 < p ∨ 3 < k then (s, .bare .range)
  else
    match (s.posAt p).call with
    | .free => (s, .bare .state)
    | .connected => (listenerUp k (s.modPos p (fun x => { x with call := .held, hold := some k })), .done)
    | .held =>
      if (s.posAt p).hold = some k then (s, .done)
      else
        let s' := match (s.posAt p).hold with
          | some j => listenerDown j s
          | none => s
        (listenerUp k (s'.modPos p (fun x => { x with hold := some k })), .done)

/-- RESUME(p): R11. -/
def resumeCore (ps : List Byte) (s : State) : State × Answer :=
  let p := field1 ps 0
  if 15 < p then (s, .bare .range)
  else
    match (s.posAt p).call with
    | .free => (s, .bare .state)
    | .connected => (s, .done)
    | .held =>
      let s' := s.modPos p (fun x => { x with call := .connected, hold := none })
      (match (s.posAt p).hold with
        | some k => listenerDown k s'
        | none => s', .done)

/-- RELEASE(p): R12. -/
def releaseCore (ps : List Byte) (s : State) : State × Answer :=
  let p := field1 ps 0
  if 15 < p then (s, .bare .range)
  else if (s.posAt p).call = .free then (s, .bare .state)
  else (teardown p .callEnd s, .done)

/-- MUTE(p, flag): R16. -/
def muteCore (ps : List Byte) (s : State) : State × Answer :=
  let p := field1 ps 0
  let f := field1 ps 1
  if 15 < p ∨ 1 < f then (s, .bare .range)
  else (s.modPos p (fun x => Position.remute { x with cmdMute := f == 1 }), .done)

/-- SET_CALL_GAINS(p, rx, tx): R21. -/
def setCallGainsCore (ps : List Byte) (s : State) : State × Answer :=
  let p := field1 ps 0
  let rx := field2 ps 1
  let tx := field2 ps 3
  if 15 < p then (s, .bare .range)
  else
    (s.modPos p (fun x => { x with rxGain := clampTo Config.gainMost rx, txGain := clampTo Config.gainMost tx }),
      .clampedDone (Config.gainMost < rx || Config.gainMost < tx))

/-- SET_SIDETONE(p, code): R22. -/
def setSidetoneCore (ps : List Byte) (s : State) : State × Answer :=
  let p := field1 ps 0
  let g := field2 ps 1
  if 15 < p then (s, .bare .range)
  else
    (s.modPos p (fun x => { x with sidetone := clampTo Config.gainMost g }), .clampedDone (Config.gainMost < g))

def cmdConnect (st : Station) (ps : List Byte) : State → State :=
  takeFrame st 0x10 [.call] (ps.length == 3) false (fun _ => connectCore ps)
def cmdHold (st : Station) (ps : List Byte) : State → State :=
  takeFrame st 0x11 [.call] (ps.length == 2) false (fun _ => holdCore ps)
def cmdResume (st : Station) (ps : List Byte) : State → State :=
  takeFrame st 0x12 [.call] (ps.length == 1) false (fun _ => resumeCore ps)
def cmdRelease (st : Station) (ps : List Byte) : State → State :=
  takeFrame st 0x13 [.call] (ps.length == 1) false (fun _ => releaseCore ps)
def cmdMute (st : Station) (ps : List Byte) : State → State :=
  takeFrame st 0x14 [.call] (ps.length == 2) false (fun _ => muteCore ps)
def cmdSetCallGains (st : Station) (ps : List Byte) : State → State :=
  takeFrame st 0x15 [.call] (ps.length == 5) false (fun _ => setCallGainsCore ps)
def cmdSetSidetone (st : Station) (ps : List Byte) : State → State :=
  takeFrame st 0x16 [.maint] (ps.length == 3) false (fun _ => setSidetoneCore ps)

/-- CONNECT: an accepted frame with code 0x10 (R5). -/
def execConnect (st : Station) (params : List Byte) (s : State) : Host.Outcome State Fault Refusal :=
  .next (cmdConnect st params s)
/-- HOLD: an accepted frame with code 0x11 (R9, R10). -/
def execHold (st : Station) (params : List Byte) (s : State) : Host.Outcome State Fault Refusal :=
  .next (cmdHold st params s)
/-- RESUME: an accepted frame with code 0x12 (R11). -/
def execResume (st : Station) (params : List Byte) (s : State) : Host.Outcome State Fault Refusal :=
  .next (cmdResume st params s)
/-- RELEASE: an accepted frame with code 0x13 (R12). -/
def execRelease (st : Station) (params : List Byte) (s : State) : Host.Outcome State Fault Refusal :=
  .next (cmdRelease st params s)
/-- MUTE: an accepted frame with code 0x14 (R16). -/
def execMute (st : Station) (params : List Byte) (s : State) : Host.Outcome State Fault Refusal :=
  .next (cmdMute st params s)
/-- SET_CALL_GAINS: an accepted frame with code 0x15 (R21). -/
def execSetCallGains (st : Station) (params : List Byte) (s : State) : Host.Outcome State Fault Refusal :=
  .next (cmdSetCallGains st params s)
/-- SET_SIDETONE: an accepted frame with code 0x16 (R22). -/
def execSetSidetone (st : Station) (params : List Byte) (s : State) : Host.Outcome State Fault Refusal :=
  .next (cmdSetSidetone st params s)

end Sys2Proof.Machine
end

