-- ==== Sys2Proof/Machine/Levels.lean ====
section
/-! DEFINITION. The Level and Bleed Unit (chapter 6): the work of one arrival, the work of a block end, and the
commands SET_LEVELS and SET_NEIGHBOURS. -/

namespace Sys2Proof.Machine

/-- The processed microphone and the block totals at an arrival (R95, R96). -/
def suppress (p : Nat) (e : Int) (s : State) : State :=
  let s := s.modMix p (fun m => { m with processed := scaled e (tableGain (s.levAt p).atten) })
  s.modLev p (fun l =>
    { l with energy := l.energy + e.natAbs * e.natAbs,
             adapting := l.adapting + bit ((s.ecAt p).state == .adapting) })

/-! ### Block end (Table 6-5) -/

/-- Level, noise floor and voice of one position (R97 to R99). -/
def Level.measure (par : LevelParams) (up : Bool) (l : Level) : Level :=
  let lam := if up then lvl (l.energy + 1) else 0
  let (n, rise) :=
    if lam < l.floor then (lam, 0)
    else if par.interval ≤ l.rise + 1 then (if l.floor < 287 then l.floor + 1 else l.floor, 0)
    else (l.floor, l.rise + 1)
  let raw : Bool := n + par.voice ≤ lam
  let hang := if raw then 10 else l.hang - 1
  { l with level := lam, floor := n, rise := rise, raw := raw, hang := hang, voice := raw || 0 < hang }

/-- The bleed test of one position against its neighbours (R101). -/
def State.bleeding (s : State) (p : Nat) : Bool :=
  (s.levAt p).neighbours.any (fun j => (s.levAt j).raw && (s.levAt p).level + s.params.bleed ≤ (s.levAt j).level)

/-- The attenuation moves toward its target: 16 lu down, 2 lu up (R102). -/
def Level.slew (par : LevelParams) (l : Level) : Level :=
  let target := if l.voice && !l.bleed then 0 else par.attenMost
  { l with atten :=
      if target < l.atten then max target (l.atten - 16)
      else if l.atten < target then min target (l.atten + 2)
      else l.atten }

/-- The caller hears p's microphone, open: CONNECTED with the mute ramp at 40 (R103, R104). -/
def State.openTrunk (s : State) (p : Nat) : Bool :=
  (s.posAt p).call == .connected && (s.posAt p).ramp == Config.rampTop

/-- The leak test of one position (R103). -/
def State.leaking (s : State) (p : Nat) : Bool :=
  let l := s.levAt p
  let m := s.mixAt p
  decide (20 ≤ m.presence) && decide (20 ≤ l.adapting) && s.openTrunk p &&
    decide ((lvl (m.energy + 1) : Int) - s.params.leak ≤ l.level) && decide (l.floor + s.params.guard ≤ l.level)

/-- The whisper guard of one position (R104). -/
def Level.guardStep (openTrunk leak : Bool) (l : Level) : Level :=
  if !openTrunk then l
  else if leak then { l with guard := min 48 (l.guard + 4), fall := 0 }
  else if l.guard = 0 then l
  else if 40 ≤ l.fall + 1 then { l with guard := l.guard - 1, fall := 0 }
  else { l with fall := l.fall + 1 }

/-- The work of a block end for all positions: first level, floor and voice of every position, then bleed,
attenuation and guard, and the block totals of this unit and of the Mix Engine restart (R96, R54). -/
def blockEndLevels (s : State) : State :=
  let s := forPositions (fun p s => s.modLev p (Level.measure s.params ((s.linkAt p).state == .up))) s
  let s := forPositions (fun p s => s.modLev p (fun l => { l with bleed := s.bleeding p })) s
  let s := forPositions (fun p s => s.modLev p (Level.slew s.params)) s
  let s := forPositions (fun p s => s.modLev p (Level.guardStep (s.openTrunk p) (s.leaking p))) s
  forPositions (fun p s =>
    (s.modLev p (fun l => { l with energy := 0, adapting := 0 })).modMix p
      (fun m => { m with energy := 0, presence := 0 })) s

/-! ### Commands -/

/-- SET_LEVELS(V, B, A_max, interval, G, D): R106, R107. -/
def setLevelsCore (ps : List Byte) (s : State) : State × Answer :=
  let v := field1 ps 0
  let b := field1 ps 1
  let a := field1 ps 2
  let i := field1 ps 3
  let g := field1 ps 4
  let d := field1 ps 5
  let par : LevelParams :=
    { voice := clampTo 96 v, bleed := clampTo 96 b, attenMost := clampTo 96 a,
      interval := if i = 0 then 1 else clampTo 64 i, guard := clampTo 96 g, leak := d }
  let s' := forPositions (fun p s => s.modLev p (fun l => { l with atten := min l.atten par.attenMost }))
    { s with params := par }
  (s', .clampedDone (96 < v || 96 < b || 96 < a || i == 0 || 64 < i || 96 < g))

/-- The positions of a SET_NEIGHBOURS body. -/
def neighbourList (ps : List Byte) : List Nat := (ps.drop 2).map (·.toNat)

/-- SET_NEIGHBOURS(p, n, list): R108, R109. -/
def setNeighboursCore (ps : List Byte) (s : State) : State × Answer :=
  let p := field1 ps 0
  let n := field1 ps 1
  let l := neighbourList ps
  if 15 < p ∨ 4 < n ∨ l.any (fun q => decide (15 < q) || q == p) ∨ ¬ l.Nodup then (s, .bare .range)
  else (s.modLev p (fun x => { x with neighbours := l }), .done)

def cmdSetLevels (st : Station) (ps : List Byte) : State → State :=
  takeFrame st 0x32 [.maint] (ps.length == 6) false (fun _ => setLevelsCore ps)
/-- The body needs as many positions as its count says (R108, R188). -/
def cmdSetNeighbours (st : Station) (ps : List Byte) : State → State :=
  takeFrame st 0x33 [.maint] (2 ≤ ps.length && ps.length == 2 + field1 ps 1) false (fun _ => setNeighboursCore ps)

/-- SET_LEVELS: an accepted frame with code 0x32 (R106). -/
def execSetLevels (st : Station) (params : List Byte) (s : State) : Host.Outcome State Fault Refusal :=
  .next (cmdSetLevels st params s)
/-- SET_NEIGHBOURS: an accepted frame with code 0x33 (R108). -/
def execSetNeighbours (st : Station) (params : List Byte) (s : State) : Host.Outcome State Fault Refusal :=
  .next (cmdSetNeighbours st params s)

end Sys2Proof.Machine
end

