-- ==== Sys2Proof/Machine/Headset.lean ====
section
/-! DEFINITION. Headset links (chapter 9): the arrival of one inbound word (HEADSET_WORD_ARRIVAL), with all that
follows from it in the link record, the mute button, the canceller, the pool and the level unit, and the order of the
sixteen arrivals of a frame. -/

namespace Sys2Proof.Machine

/-- The microphone sample `d`, cancelled and suppressed, and kept raw for the sidetone (R162, R61 to R67, R95). -/
def handOn (p : Nat) (d : Int) (s : State) : State :=
  let (s, e) := cancel p d (s.modMix p (fun m => { m with raw := d }))
  suppress p e s

/-- The link of `p` becomes UP at the word that completed the run (R160). -/
def linkUp (p : Nat) (sample : Int) (button : Bool) (s : State) : State :=
  let s := s.modLink p (fun l =>
    { l with state := .up, goodRun := 0, badRun := 0, held := sample, stable := button, change := 0 })
  (poolLinkUp p (zeroCanceller p s)).post .call .headsetUp (some p) none none none

/-- The link of `p` leaves UP (R161): the segments go back, the canceller is OFF, button mute is set off. -/
def linkDown (p : Nat) (s : State) : State :=
  let s := s.modLink p (fun l =>
    { l with state := .down, goodRun := 0, badRun := 0, held := 0, stable := false, change := 0 })
  let s := poolLinkDown p s
  let s := s.modEc p (fun c => { c with state := .off })
  let s := s.modPos p (fun x => Position.remute { x with btnMute := false })
  s.post .call .headsetDown (some p) none none none

/-- A good word's button level goes to the debouncer; a debounced press toggles button mute (R163, R164). -/
def debounce (p : Nat) (button : Bool) (s : State) : State :=
  let l := s.linkAt p
  if button = l.stable then s.modLink p (fun l => { l with change := 0 })
  else if l.change + 1 < Config.buttonRun then s.modLink p (fun l => { l with change := l.change + 1 })
  else
    let s := s.modLink p (fun l => { l with stable := button, change := 0 })
    if button then pressButton p s else s

/-- A good word at the link of `p` (R158, R159). -/
def goodWord (p : Nat) (sample : Int) (button : Bool) (s : State) : State :=
  let l := s.linkAt p
  match l.state with
  | .down => handOn p 0 (s.modLink p (fun l => { l with state := .probing, goodRun := 1 }))
  | .probing =>
    if Config.upRun ≤ l.goodRun + 1 then handOn p sample (linkUp p sample button s)
    else handOn p 0 (s.modLink p (fun l => { l with goodRun := l.goodRun + 1 }))
  | .up => handOn p sample (debounce p button (s.modLink p (fun l => { l with badRun := 0, held := sample })))

/-- A bad word at the link of `p` (R158, R159, R161). -/
def badWord (p : Nat) (s : State) : State :=
  let l := s.linkAt p
  match l.state with
  | .down => handOn p 0 s
  | .probing => handOn p 0 (s.modLink p (fun l => { l with state := .down, goodRun := 0 }))
  | .up =>
    if Config.downRun ≤ l.badRun + 1 then handOn p 0 (linkDown p s)
    else handOn p l.held (s.modLink p (fun l => { l with badRun := l.badRun + 1 }))

/-- The arrival of one inbound word (R154, R156, R158 to R162). -/
def headsetWord (p : Nat) (w : BitVec 19) (s : State) : State :=
  if wordGood w then goodWord p (inboundSample w) (inboundButton w) s else badWord p s

/-- The word of the port that is next in the order P0 to P15 (R154). -/
def takeWord (p : Nat) (w : BitVec 19) (s : State) : State := (headsetWord p w s).setWords (p + 1)

/-- The next `n` ports of the order yield the word of a data line that is held low: all zeros, present 0 (R154). -/
def fillWords : Nat → State → State
  | 0, s => s
  | n + 1, s => fillWords n (takeWord s.words 0 s)

/-- The ports whose word of the frame in progress the outside has not brought yield the word of an unattached port, so
that each port has one word in the frame (R154) (DESIGN CHOICE, log entry 15). -/
def missingWords (s : State) : State := fillWords (16 - s.words) s

/-- HEADSET_WORD_ARRIVAL: one word a frame from each port, taken in the order P0 to P15. A port that is passed over has
yielded the word of an unattached port, and a port whose word has been taken has no second one in the frame (R154)
(DESIGN CHOICE, log entries 6 and 15). -/
def headsetWordArrival (p : Nat) (w : BitVec 19) (s : State) : State :=
  if p < s.words then s else takeWord p w (fillWords (p - s.words) s)

/-- HEADSET_WORD_ARRIVAL (R154). -/
def execHeadsetWordArrival (p : Fin 16) (word : BitVec 19) (s : State) : Host.Outcome State Fault Refusal :=
  .next (headsetWordArrival p.val word s)

end Sys2Proof.Machine
end

