-- ==== Sys2Proof/Machine/Clips.lean ====
section
/-! DEFINITION. The clip catalogue, caller prompts and hold programmes (chapter 7): CLIP_LOAD, CLIP_DELETE,
SET_PROGRAMME, CALLER_PROMPT and STOP_PROMPT; and what the arrival of fetched bytes does to a slot. -/

namespace Sys2Proof.Machine

/-- A programme names the clip as its current or as its pending clip (R113). -/
def Programme.binds (g : Programme) (c : Nat) : Bool := g.clip == some c || g.pending == .clip c

/-- The clip is bound (R113). -/
def State.bound (s : State) (c : Nat) : Bool := (List.range 4).any (fun k => (s.progAt k).binds c)

/-- Two ranges of addresses share at least one address (R142). -/
def rangesMeet (a n b m : Nat) : Bool := a < b + m && b < a + n

/-- The entry's samples overlap the target range of the store operation in flight (R114, R148). -/
def State.underOperation (s : State) (start length : Nat) : Bool :=
  match s.store.op with
  | some o => rangesMeet start length o.start o.size
  | none => false

/-- The range checks of a clip's fields (R114, Table 7-1); the loop offset counts for MUSIC. -/
def clipFieldsFit (cls : ClipClass) (start length loop : Nat) : Bool :=
  start % 64 == 0 && Config.sectorBytes ≤ start && 1 ≤ length && length ≤ 16777215 &&
    start + length ≤ Config.storeBytes && (cls != .music || loop < length)

/-- What an entry holds of a clip; the loop offset is kept for MUSIC alone (R114). -/
def clipBody (cls : ClipClass) (start length loop : Nat) : ClipBody :=
  { cls := cls, start := start, length := length, loop := if cls = .music then some loop else none }

/-- CLIP_LOAD(clip, class, start, length, loop): R114. -/
def clipLoadCore (ps : List Byte) (s : State) : State × Answer :=
  let c := field1 ps 0
  let start := field3 ps 2
  let len := field3 ps 5
  let loop := field3 ps 8
  match classOf (field1 ps 1) with
  | none => (s, .bare .range)
  | some cls =>
    let e := s.clipAt c
    if 127 < c ∨ !clipFieldsFit cls start len loop then (s, .bare .range)
    else if e.state = .retiring ∨ 0 < e.use ∨ s.bound c ∨ e.fenced then (s, .bare .inUse)
    else
      (s.modClip c (fun _ =>
        { state := .active, body := some (clipBody cls start len loop), use := 0,
          fenced := s.underOperation start len }), .done)

/-- CLIP_DELETE(clip): R115. -/
def clipDeleteCore (ps : List Byte) (s : State) : State × Answer :=
  let c := field1 ps 0
  let e := s.clipAt c
  if 127 < c then (s, .bare .range)
  else if e.state ≠ .active then (s, .bare .state)
  else if s.bound c then (s, .bare .inUse)
  else if e.use = 0 then (s.modClip c (fun _ => Clip.empty), .doneWith (put1 (clipStateCode .empty)))
  else (s.modClip c (fun x => { x with state := .retiring }), .doneWith (put1 (clipStateCode .retiring)))

/-- SET_PROGRAMME that passes, for a clip or for none, by the state of slot S_k (R134). -/
def programmeTaken (k : Nat) (c : Option Nat) (s : State) : State :=
  let g := s.progAt k
  if (s.slotAt k).state = .idle then
    let s' := s.modProg k (fun g => { g with clip := c, pending := .empty })
    if c.isSome ∧ 0 < g.listeners then startProgramme k s' else s'
  else
    match c with
    | some c =>
      if g.clip = some c then s.modProg k (fun g => { g with pending := .empty })
      else s.modProg k (fun g => { g with pending := .clip c })
    | none => s.modProg k (fun g => { g with pending := .none })

/-- SET_PROGRAMME(k, clip or none): R134. The clip byte 255 means none (R198). -/
def setProgrammeCore (ps : List Byte) (s : State) : State × Answer :=
  let k := field1 ps 0
  let c := field1 ps 1
  let e := s.clipAt c
  if 3 < k then (s, .bare .range)
  else if c = 255 then (programmeTaken k none s, .done)
  else if 127 < c then (s, .bare .range)
  else if e.state ≠ .active then (s, .bare .state)
  else if e.body.map (·.cls) ≠ some .music then (s, .bare .cls)
  else if e.fenced then (s, .bare .inUse)
  else (programmeTaken k (some c) s, .done)

/-- CALLER_PROMPT(p, clip, gain, repeats, agent-hears): R126. -/
def callerPromptCore (ps : List Byte) (s : State) : State × Answer :=
  let p := field1 ps 0
  let c := field1 ps 1
  let g := field2 ps 2
  let n := field1 ps 4
  let h := field1 ps 5
  let e := s.clipAt c
  if 15 < p ∨ 127 < c ∨ n = 0 ∨ 15 < n ∨ 1 < h then (s, .bare .range)
  else if (s.posAt p).call = .free then (s, .bare .state)
  else if e.state ≠ .active then (s, .bare .state)
  else if e.body.map (·.cls) ≠ some .caller then (s, .bare .cls)
  else if e.fenced then (s, .bare .inUse)
  else if (s.streamOf .caller p).isSome then (s, .bare .inUse)
  else
    match s.freeSlot with
    | none => (s, .bare .noRoom)
    | some i =>
      (startStream i .caller p c (clampTo Config.gainMost g) (some (n - 1)) (some (h == 1)) s,
        { status := .done, clamped := Config.gainMost < g, data := put1 i })

/-- STOP_PROMPT(p): R127. -/
def stopPromptCore (ps : List Byte) (s : State) : State × Answer :=
  let p := field1 ps 0
  if 15 < p then (s, .bare .range)
  else
    match s.streamOf .caller p with
    | some i => if (s.slotAt i).state.sounding then (stopSlot i .stopped s, .bare .taken) else (s, .bare .state)
    | none => (s, .bare .state)

/-! ### The arrival of fetched bytes at a slot (R119 to R121) -/

/-- A slot asks for a fetch (R119). -/
def Slot.asks (x : Slot) : Bool :=
  (x.state == .priming || x.state == .playing || x.state == .stopping) && x.buffer.length ≤ Config.askFill &&
    0 < x.left

/-- The slot goes on at the given address with the given number of samples. -/
def Slot.goOn (addr left : Nat) (x : Slot) : Slot := { x with addr := addr, left := left }

/-- A pass end of programme slot `k` (R120). -/
def programmePassEnd (k : Nat) (s : State) : State :=
  let x := s.slotAt k
  match (s.progAt k).pending with
  | .clip c =>
    let s := match x.clip with
      | some old => useDown old s
      | none => s
    let s := useUp c s
    let b := (s.clipAt c).body
    applyPending k (s.modSlot k (fun x =>
      { x with clip := some c, addr := (b.map (·.start)).getD 0, left := (b.map (·.length)).getD 0 }))
  | .none =>
    applyPending k (s.modSlot k (fun x =>
      if x.state = .stopping ∧ x.dir = some .rising then
        { x with dir := some .falling, cause := some .noListeners }
      else x))
  | .empty =>
    match x.clip.bind (fun c => (s.clipAt c).body) with
    | some b => s.modSlot k (Slot.goOn (b.start + b.loop.getD 0) (b.length - b.loop.getD 0))
    | none => s

/-- A pass end of slot `i`: repeat, change of clip, loop, or nothing left to fetch (R120). -/
def passEnd (i : Nat) (s : State) : State :=
  let x := s.slotAt i
  let s := match x.kind with
    | some .programme => programmePassEnd i s
    | some .caller =>
      match x.repeats.getD 0, x.clip.bind (fun c => (s.clipAt c).body) with
      | n + 1, some b => s.modSlot i (fun x => Slot.goOn b.start b.length { x with repeats := some n })
      | _, _ => s
    | _ => s
  s.modSlot i (fun x => if x.left = 0 ∧ x.state = .playing then { x with state := .ending } else x)

/-- Fetched bytes arrive at slot `i` (R119): they are decoded behind the buffer's samples, the underrun episode ends
(R124), and a pass end and the end of priming follow. After the last fetch of a clip that ends at the store's end the next
fetch address is 16,777,216, which Table 7-2's range leaves out: it is kept so (DESIGN CHOICE, log entry 43). -/
def arrive (i : Nat) (bytes : List Byte) (s : State) : State :=
  let s := s.modSlot i (fun x =>
    { x with buffer := x.buffer ++ bytes.map lawDecode, addr := x.addr + bytes.length,
             left := x.left - bytes.length, underrun := false })
  let s := if (s.slotAt i).left = 0 then passEnd i s else s
  s.modSlot i Slot.primed

def cmdClipLoad (st : Station) (ps : List Byte) : State → State :=
  takeFrame st 0x40 [.maint] (ps.length == 11) false (fun _ => clipLoadCore ps)
def cmdClipDelete (st : Station) (ps : List Byte) : State → State :=
  takeFrame st 0x41 [.maint] (ps.length == 1) false (fun _ => clipDeleteCore ps)
def cmdSetProgramme (st : Station) (ps : List Byte) : State → State :=
  takeFrame st 0x42 [.maint] (ps.length == 2) false (fun _ => setProgrammeCore ps)
def cmdCallerPrompt (st : Station) (ps : List Byte) : State → State :=
  takeFrame st 0x43 [.call] (ps.length == 6) false (fun _ => callerPromptCore ps)
def cmdStopPrompt (st : Station) (ps : List Byte) : State → State :=
  takeFrame st 0x44 [.call] (ps.length == 1) false (fun _ => stopPromptCore ps)

/-- CLIP_LOAD: an accepted frame with code 0x40 (R114). -/
def execClipLoad (st : Station) (params : List Byte) (s : State) : Host.Outcome State Fault Refusal :=
  .next (cmdClipLoad st params s)
/-- CLIP_DELETE: an accepted frame with code 0x41 (R115). -/
def execClipDelete (st : Station) (params : List Byte) (s : State) : Host.Outcome State Fault Refusal :=
  .next (cmdClipDelete st params s)
/-- SET_PROGRAMME: an accepted frame with code 0x42 (R134). -/
def execSetProgramme (st : Station) (params : List Byte) (s : State) : Host.Outcome State Fault Refusal :=
  .next (cmdSetProgramme st params s)
/-- CALLER_PROMPT: an accepted frame with code 0x43 (R126). -/
def execCallerPrompt (st : Station) (params : List Byte) (s : State) : Host.Outcome State Fault Refusal :=
  .next (cmdCallerPrompt st params s)
/-- STOP_PROMPT: an accepted frame with code 0x44 (R127). -/
def execStopPrompt (st : Station) (params : List Byte) (s : State) : Host.Outcome State Fault Refusal :=
  .next (cmdStopPrompt st params s)

end Sys2Proof.Machine
end

