-- ==== Sys2Proof/Machine/Store.lean ====
section
/-! DEFINITION. The store link (chapter 8): fetch arbitration, the store operation in flight with its steps, fences,
the store commands, and the directory image. The store itself is outside the part: its bytes come with the events. -/

namespace Sys2Proof.Machine

/-! ### The link and the arbiter (R139, R140) -/

/-- A fetch or a read may take the link: the activity is IDLE, ERASE_RUNNING or ERASE_SUSPENDED, and no step has begun
that still waits for the store (R140, R153) (DEDUCED, log entry 19). -/
def Store.linkFree (u : Store) : Bool :=
  (u.activity == .idle || u.activity == .eraseRunning || u.activity == .eraseSuspended) &&
    (u.op.map (·.phase)) != some .waitReady

/-- Some slot asks for a fetch (R119). -/
def State.anyAsking (s : State) : Bool := (List.range 24).any (fun i => (s.slotAt i).asks)

/-- The first slot found asking, looking from the slot after the last served one, S0 following S23 (R140). -/
def State.nextAsking (s : State) : Option Nat :=
  ((List.range 24).map (fun j => (s.store.lastServed + 1 + j) % 24)).find? (fun i => (s.slotAt i).asks)

/-- A running erase is suspended for a fetch or a read (R144). -/
def Store.suspendErase (u : Store) : Store :=
  match u.op with
  | some o =>
    if u.activity = .eraseRunning then
      { u with op := some { o with phase := .suspending, clock := 0 }, request := some .suspend }
    else u
  | none => u

/-- The store has been seen ready, so a suspend that was sent is answered (R144). -/
def Store.suspendAnswered (u : Store) : Store :=
  { u with op := u.op.map (fun o => if o.phase = .suspending then { o with phase := .suspended } else o) }

/-- The link lets go of a fetch (R141). -/
def Store.endFetch (u : Store) : Store := { u with fetch := none, activity := u.released }

/-- FETCH_GRANT (R140, R141). -/
def fetchGrant (s : State) : State :=
  if s.store.linkFree ∧ s.store.read = none then
    match s.nextAsking with
    | some i =>
      let x := s.slotAt i
      s.modStore (fun u =>
        { u.suspendErase with
          activity := .fetch, lastServed := i,
          fetch := some { slot := i, addr := x.addr, count := min Config.fetchBlock x.left, live := true, clock := 0 } })
    | none => s
  else s

/-- FETCH_ARRIVAL (R119, R141): data for a stream that has ended is discarded
(DESIGN CHOICE, log entries 6 and 8). -/
def fetchArrival (bytes : List Byte) (s : State) : State :=
  match s.store.fetch with
  | some f =>
    if bytes.length = f.count then
      let s := s.modStore (fun u =>
        { u.suspendAnswered.endFetch with request := some (.read f.addr f.count) })
      if f.live then arrive f.slot bytes s else s
    else s
  | none => s

/-- FETCH_TIMEOUT (R141): no field of the slot changes. -/
def fetchTimeout (s : State) : State :=
  match s.store.fetch with
  | some _ => s.modStore Store.endFetch
  | none => s

/-! ### Fences (R148) -/

/-- The entry is not EMPTY and its samples share an address with the range (R142). -/
def Clip.overlaps (e : Clip) (start size : Nat) : Bool :=
  match e.body with
  | some b => rangesMeet b.start b.length start size
  | none => false

/-- Runs `f` for each of the 128 clips, in increasing id. -/
def forClips (f : Nat → State → State) (s : State) : State := (List.range 128).foldl (fun s c => f c s) s

/-- At the acceptance of an operation every overlapping entry is fenced (R148). -/
def fenceRange (start size : Nat) (s : State) : State :=
  forClips (fun c s => s.modClip c (fun e => if e.overlaps start size then { e with fenced := true } else e)) s

/-- At the end of the operation the fences are lifted (R146). One operation is in flight at a time, so every fence
that is set is its own (DEDUCED, log entry 31). -/
def liftFences (s : State) : State := forClips (fun c s => s.modClip c (fun e => { e with fenced := false })) s

/-! ### The operation in flight (R142 to R146, R149) -/

/-- The value of STORE_DONE: the sector of an erase, the address of a write, 0 for a save (R146). -/
def Operation.value (o : Operation) : Nat :=
  match o.kind with
  | .erase => o.start / Config.sectorBytes
  | .write => o.start
  | .save => 0

/-- The store operation ends: fences lifted, operation removed, STORE_DONE to MAINT (R146). -/
def storeDone (c : Cause) (s : State) : State :=
  match s.store.op with
  | some o =>
    ((liftFences s).modStore (fun u => { u with op := none })).post .maint .storeDone none (some (opCode o.kind))
      (some c) (some o.value)
  | none => s

/-- The current step is an erase: a STORE_ERASE, and the first step of a save (R143, R149). -/
def Operation.stepErases (o : Operation) : Bool := o.kind == .erase || (o.kind == .save && o.step == 0)

/-- The page program of the current step: the bytes of a write at its address, or the next part of the image (R145,
R149). -/
def Operation.stepProgram (o : Operation) : StoreRequest :=
  match o.kind with
  | .save =>
    let a := Config.pageBytes * (o.step - 1)
    .program a ((o.data.drop a).take Config.pageBytes)
  | _ => .program o.start o.data

/-- A step has ended in time: a save goes on to its next step until its seventh program, and any other operation ends
with OK (R149). -/
def stepEnded (s : State) : State :=
  match s.store.op with
  | some o =>
    if o.kind = .save ∧ o.step < 7 then
      s.modStore (fun u => { u with op := some { o with step := o.step + 1, phase := .notStarted } })
    else storeDone .ok s
  | none => s

/-- The phase of the operation in flight. -/
def State.phase (s : State) : Option StepPhase := s.store.op.map (·.phase)

/-- OPERATION_STEP_START (R142): the link is IDLE, no slot asks, and no STORE_READ is pending. -/
def operationStepStart (s : State) : State :=
  match s.store.op with
  | some o =>
    if o.phase = .notStarted ∧ s.store.activity = .idle ∧ s.store.read = none ∧ ¬ s.anyAsking then
      s.modStore (fun u => { u with op := some { o with phase := .waitReady } })
    else s
  | none => s

/-- STEP_STORE_READY (R143, R145): the erase or the page program is sent. -/
def stepStoreReady (s : State) : State :=
  match s.store.op with
  | some o =>
    if o.phase = .waitReady then
      if o.stepErases then
        s.modStore (fun u =>
          { u with activity := .eraseRunning, request := some (.erase (o.start / Config.sectorBytes)),
                   op := some { o with phase := .erasing, runTime := 0, clock := 0 } })
      else
        s.modStore (fun u =>
          { u with activity := .program, request := some o.stepProgram,
                   op := some { o with phase := .programming, clock := 0 } })
    else s
  | none => s

/-- From the event at which an erase ends, no erase is paused: the link is IDLE unless a fetch or a read holds it
(R144). -/
def Store.eraseGone (u : Store) : Store :=
  { u with activity := if u.activity = .eraseRunning ∨ u.activity = .eraseSuspended then .idle else u.activity }

/-- ERASE_DONE (R143, R144): the store reports ready while the erase runs, or after a suspend with no erase left to
pause. -/
def eraseDone (s : State) : State :=
  if s.phase = some .erasing ∨ s.phase = some .suspending then stepEnded (s.modStore Store.eraseGone) else s

/-- ERASE_TIMEOUT (R143). -/
def eraseTimeout (s : State) : State :=
  if s.phase = some .erasing then storeDone .timeout (s.modStore Store.eraseGone) else s

/-- SUSPEND_TIMEOUT (R144). -/
def suspendTimeout (s : State) : State :=
  if s.phase = some .suspending then storeDone .timeout (s.modStore Store.eraseGone) else s

/-- ERASE_RESUME (R144) (DESIGN CHOICE, log entry 20). -/
def eraseResume (s : State) : State :=
  match s.store.op with
  | some o =>
    if s.store.activity = .eraseSuspended ∧ s.store.read = none ∧ ¬ s.anyAsking then
      s.modStore (fun u =>
        { u with activity := .eraseRunning, request := some .resume, op := some { o with phase := .erasing } })
    else s
  | none => s

/-- PROGRAM_DONE (R145). -/
def programDone (s : State) : State :=
  if s.phase = some .programming then stepEnded (s.modStore (fun u => { u with activity := .idle })) else s

/-- PROGRAM_TIMEOUT (R145). -/
def programTimeout (s : State) : State :=
  if s.phase = some .programming then storeDone .timeout (s.modStore (fun u => { u with activity := .idle })) else s

/-! ### STORE_READ (R147) -/

/-- STORE_READ_SERVE: the pending read takes the free link, ahead of every asking slot. -/
def storeReadServe (s : State) : State :=
  match s.store.read with
  | some r =>
    if s.store.linkFree ∧ ¬ r.holding then
      s.modStore (fun u => { u.suspendErase with activity := .read, read := some { r with holding := true } })
    else s
  | none => s

/-- The outcome of a STORE_READ becomes the reply that is owed, from this event on (R189). -/
def Port.outcome (st : Status) (d : List Byte) (q : Port) : Port :=
  { q with owed := q.owed.map (fun o =>
      if o.waiting then { o with status := st, data := d, waiting := false, clock := 0 } else o) }

/-- STORE_READ_COMPLETE: DONE with the bytes becomes owed. -/
def storeReadComplete (bytes : List Byte) (s : State) : State :=
  match s.store.read with
  | some r =>
    if r.holding ∧ bytes.length = r.count then
      (s.modStore (fun u => { u.suspendAnswered.dropRead with request := some (.read r.addr r.count) })).modPort
        (Port.outcome .done bytes)
    else s
  | none => s

/-- STORE_READ_ABANDON: BUSY becomes owed. -/
def storeReadAbandon (s : State) : State :=
  match s.store.read with
  | some _ => (s.modStore Store.dropRead).modPort (Port.outcome .busy [])
  | none => s

/-! ### The directory image (R149, R150) -/

/-- The clip that programme `g` will play once its pending change is made (R150). -/
def Programme.next (g : Programme) : Option Nat :=
  match g.pending with
  | .clip c => some c
  | .none => none
  | .empty => g.clip

/-- The lowest-numbered programme so bound to clip `c` (R150). -/
def State.savedBinding (s : State) (c : Nat) : Option Nat :=
  (List.range 4).find? (fun k => (s.progAt k).next == some c)

/-- The directory entry of 12 bytes of an ACTIVE clip; none for the others (R150, Table 12-7). -/
def State.directoryEntry (s : State) (c : Nat) : List Byte :=
  let e := s.clipAt c
  match e.state, e.body with
  | .active, some b =>
    put1 c ++ put1 (classCode b.cls) ++ putOpt1 (s.savedBinding c) ++ put3 b.start ++ put3 b.length ++
      put3 (b.loop.getD 0)
  | _, _ => []

/-- The sum of bytes modulo 65536 (Table 8-4). -/
def byteSum (bs : List Byte) : Nat := (bs.map (·.toNat)).sum % 65536

/-- The signature T, G, D, R (Table 12-7). -/
def signature : List Byte := [84, 71, 68, 82]

/-- The directory image of 1544 bytes (R150). -/
def State.directoryImage (s : State) : List Byte :=
  let entries := (List.range 128).flatMap s.directoryEntry
  signature ++ put2 (entries.length / 12) ++ put2 (byteSum entries) ++ entries ++
    List.replicate (Config.imageBytes - 8 - entries.length) 255

/-! ### The store commands (R142, Table 8-3) -/

/-- A clip that overlaps the range is in use or bound (R142). -/
def State.rangeInUse (s : State) (start size : Nat) : Bool :=
  (List.range 128).any (fun c =>
    (s.clipAt c).overlaps start size && (decide (0 < (s.clipAt c).use) || s.bound c))

/-- The operation becomes the one in flight and the fences are set (R142, R148). -/
def acceptOperation (kind : OpKind) (start size : Nat) (data : List Byte) (s : State) : State :=
  fenceRange start size (s.modStore (fun u =>
    { u with op := some { kind := kind, start := start, size := size, data := data, step := 0, phase := .notStarted,
                          runTime := 0, clock := 0 } }))

/-- STORE_ERASE(sector): R142. -/
def storeEraseCore (ps : List Byte) (s : State) : State × Answer :=
  let n := field2 ps 0
  if n = 0 ∨ 4095 < n then (s, .bare .range)
  else if s.store.op.isSome then (s, .bare .busy)
  else if s.rangeInUse (Config.sectorBytes * n) Config.sectorBytes then (s, .bare .inUse)
  else (acceptOperation .erase (Config.sectorBytes * n) Config.sectorBytes [] s, .bare .taken)

/-- STORE_WRITE(address, n, bytes): R142. -/
def storeWriteCore (ps : List Byte) (s : State) : State × Answer :=
  let a := field3 ps 0
  let n := field1 ps 3
  if n = 0 ∨ 32 < n ∨ a < Config.sectorBytes ∨ Config.pageBytes < a % Config.pageBytes + n then (s, .bare .range)
  else if s.store.op.isSome then (s, .bare .busy)
  else if s.rangeInUse a n then (s, .bare .inUse)
  else (acceptOperation .write a n (ps.drop 4) s, .bare .taken)

/-- STORE_READ(address, n): R147. -/
def storeReadCore (ps : List Byte) (s : State) : State × Answer :=
  let a := field3 ps 0
  let n := field1 ps 3
  if n = 0 ∨ 32 < n ∨ Config.storeBytes < a + n then (s, .bare .range)
  else if (s.store.op.map (·.kind)) = some .write ∨ (s.store.op.map (·.kind)) = some .save then (s, .bare .busy)
  else
    (s.modStore (fun u => { u with read := some { addr := a, count := n, holding := false, clock := 0 } }),
      { status := .done, waiting := true })

/-- SAVE_DIRECTORY: R149. -/
def saveDirectoryCore (s : State) : State × Answer :=
  if s.store.op.isSome then (s, .bare .busy)
  else (acceptOperation .save 0 Config.sectorBytes s.directoryImage s, .bare .taken)

def cmdStoreErase (st : Station) (ps : List Byte) : State → State :=
  takeFrame st 0x50 [.maint] (ps.length == 2) false (fun _ => storeEraseCore ps)
/-- The body needs as many bytes as its count says (R188). -/
def cmdStoreWrite (st : Station) (ps : List Byte) : State → State :=
  takeFrame st 0x51 [.maint] (4 ≤ ps.length && ps.length == 4 + field1 ps 3) false (fun _ => storeWriteCore ps)
def cmdStoreRead (st : Station) (ps : List Byte) : State → State :=
  takeFrame st 0x52 [.maint] (ps.length == 4) false (fun _ => storeReadCore ps)
def cmdSaveDirectory (st : Station) (ps : List Byte) : State → State :=
  takeFrame st 0x53 [.maint] (ps.length == 0) false (fun _ => saveDirectoryCore)

/-- STORE_ERASE: an accepted frame with code 0x50 (R142). -/
def execStoreErase (st : Station) (params : List Byte) (s : State) : Host.Outcome State Fault Refusal :=
  .next (cmdStoreErase st params s)
/-- STORE_WRITE: an accepted frame with code 0x51 (R142). -/
def execStoreWrite (st : Station) (params : List Byte) (s : State) : Host.Outcome State Fault Refusal :=
  .next (cmdStoreWrite st params s)
/-- STORE_READ: an accepted frame with code 0x52 (R147). -/
def execStoreRead (st : Station) (params : List Byte) (s : State) : Host.Outcome State Fault Refusal :=
  .next (cmdStoreRead st params s)
/-- SAVE_DIRECTORY: an accepted frame with code 0x53 (R149). -/
def execSaveDirectory (st : Station) (params : List Byte) (s : State) : Host.Outcome State Fault Refusal :=
  .next (cmdSaveDirectory st params s)
/-- FETCH_GRANT (R140). -/
def execFetchGrant (s : State) : Host.Outcome State Fault Refusal := .next (fetchGrant s)
/-- FETCH_ARRIVAL (R119). -/
def execFetchArrival (bytes : List Byte) (s : State) : Host.Outcome State Fault Refusal := .next (fetchArrival bytes s)
/-- FETCH_TIMEOUT (R141). -/
def execFetchTimeout (s : State) : Host.Outcome State Fault Refusal := .next (fetchTimeout s)
/-- OPERATION_STEP_START (R142). -/
def execOperationStepStart (s : State) : Host.Outcome State Fault Refusal := .next (operationStepStart s)
/-- STEP_STORE_READY (R143, R145). -/
def execStepStoreReady (s : State) : Host.Outcome State Fault Refusal := .next (stepStoreReady s)
/-- ERASE_DONE (R143, R144). -/
def execEraseDone (s : State) : Host.Outcome State Fault Refusal := .next (eraseDone s)
/-- ERASE_TIMEOUT (R143). -/
def execEraseTimeout (s : State) : Host.Outcome State Fault Refusal := .next (eraseTimeout s)
/-- SUSPEND_TIMEOUT (R144). -/
def execSuspendTimeout (s : State) : Host.Outcome State Fault Refusal := .next (suspendTimeout s)
/-- ERASE_RESUME (R144). -/
def execEraseResume (s : State) : Host.Outcome State Fault Refusal := .next (eraseResume s)
/-- PROGRAM_DONE (R145). -/
def execProgramDone (s : State) : Host.Outcome State Fault Refusal := .next (programDone s)
/-- PROGRAM_TIMEOUT (R145). -/
def execProgramTimeout (s : State) : Host.Outcome State Fault Refusal := .next (programTimeout s)
/-- STORE_READ_SERVE (R147). -/
def execStoreReadServe (s : State) : Host.Outcome State Fault Refusal := .next (storeReadServe s)
/-- STORE_READ_COMPLETE (R147). -/
def execStoreReadComplete (bytes : List Byte) (s : State) : Host.Outcome State Fault Refusal :=
  .next (storeReadComplete bytes s)
/-- STORE_READ_ABANDON (R147). -/
def execStoreReadAbandon (s : State) : Host.Outcome State Fault Refusal := .next (storeReadAbandon s)

end Sys2Proof.Machine
end

