-- ==== Sys2Proof/Machine/Reads.lean ====
section
/-! DEFINITION. The five READ commands with their records (R192, section 12.3), and FETCH_NOTICES (R194). -/

namespace Sys2Proof.Machine

/-- The place of a value in a list, the head being 0. -/
def placeIn (p : Nat) (l : List Nat) : Option Nat := l.findIdx? (· == p)

/-- Slot number and stream state of a position's stream; both absent when it has none (Table 12-4). -/
def State.streamBytes (s : State) (k : StreamKind) (p : Nat) : List Byte :=
  match s.streamOf k p with
  | some i => put1 i ++ put1 (streamCode (s.slotAt i).state)
  | none => putOpt1 none ++ putOpt1 none

/-- One of the four places for a whisper queue item (Table 12-4). -/
def itemBytes (it : Option WhisperItem) : List Byte :=
  putOpt1 (it.map (·.clip)) ++ putOpt2 (it.map (·.gain)) ++ putOpt1 (it.map (fun i => admissionCode i.admission))

/-- The READ_POSITION record of 66 bytes (Table 12-4). -/
def State.positionRecord (s : State) (p : Nat) : List Byte :=
  let x := s.posAt p
  let l := s.linkAt p
  let c := s.ecAt p
  let v := s.levAt p
  let q := s.queueAt p
  put1 (callCode x.call) ++ putOpt1 (x.binding.map (·.rx)) ++ putOpt1 (x.binding.map (·.tx)) ++ putOpt1 x.hold ++
  put1 (bit x.cmdMute) ++ put1 (bit x.btnMute) ++ put1 (bit x.effMute) ++ put1 x.ramp ++
  putOpt1 (x.relation.map (fun r => formCode r.form)) ++ putOpt1 (x.relation.map (·.other)) ++
  putOpt1 (x.relation.map (fun r => modeCode r.mode)) ++ putOpt2 (x.relation.bind (·.gain)) ++
  put2 x.rxGain ++ put2 x.txGain ++ put2 x.sidetone ++
  put1 (linkCode l.state) ++ put1 l.badRun ++ put1 (bit l.stable) ++
  put1 (cancellerCode c.state) ++ put2 (s.filterLength p) ++ put1 c.hangover ++ put1 c.step ++ put1 c.shift ++
  put1 (bit c.freeze) ++ put1 c.request ++
  put2 v.level ++ put2 v.floor ++ put1 (bit v.raw) ++ put1 v.hang ++ put1 (bit v.voice) ++ put1 (bit v.bleed) ++
  put1 v.atten ++ put1 v.guard ++ putList 4 v.neighbours ++
  put1 q.length ++ itemBytes q[0]? ++ itemBytes q[1]? ++ itemBytes q[2]? ++ itemBytes q[3]? ++
  putOpt1 (placeIn p s.waitList) ++ s.streamBytes .whisper p ++ s.streamBytes .caller p

/-- The pending clip of a programme slot's programme; absent for a general slot, and for an empty field or the mark
NONE (Table 12-5). -/
def State.pendingOfSlot (s : State) (i : Nat) : Option Nat :=
  if i < 4 then
    match (s.progAt i).pending with
    | .clip c => some c
    | _ => none
  else none

/-- The READ_STREAM record of 22 bytes (Table 12-5). A next fetch address of 16,777,216, past the store's end, has no place
in three bytes: its low 24 bits, 0, are sent (DESIGN CHOICE, log entry 43). -/
def State.streamRecord (s : State) (i : Nat) : List Byte :=
  let x := s.slotAt i
  put1 (streamCode x.state) ++ putOpt1 (x.kind.map streamKindCode) ++ putOpt1 x.target ++ putOpt1 x.clip ++
  put3 x.addr ++ put3 x.left ++ put2 x.buffer.length ++ putOpt1 x.repeats ++ putOpt1 (x.hears.map bit) ++
  putOpt2 x.gain ++ put1 x.ramp ++ putOpt1 (x.dir.map dirCode) ++ put1 (bit x.begun) ++
  putOpt1 (x.cause.map causeCode) ++ put1 (bit x.underrun) ++ putOpt1 (s.pendingOfSlot i)

/-- A mask with bit `k` for each of the first `n` numbers for which `f` holds. -/
def maskOf (n : Nat) (f : Nat → Bool) : Nat := ((List.range n).map (fun k => if f k then 2 ^ k else 0)).sum

/-- The READ_CLIP record of 15 bytes (Table 12-5). -/
def State.clipRecord (s : State) (c : Nat) : List Byte :=
  let e := s.clipAt c
  put1 (clipStateCode e.state) ++ putOpt1 (e.body.map (fun b => classCode b.cls)) ++
  putOpt3 (e.body.map (·.start)) ++ putOpt3 (e.body.map (·.length)) ++ putOpt3 (e.body.bind (·.loop)) ++
  put1 e.use ++ put1 (bit e.fenced) ++ put1 (maskOf 4 (fun k => (s.progAt k).clip == some c)) ++
  put1 (maskOf 4 (fun k => (s.progAt k).pending == .clip c))

/-- Eight marks of the drive set from timeslot `ts` on: the first mark is the first bit sent, which on the Control
Link is the least significant (Table 12-5, R184) (DEDUCED, log entry 28). -/
def State.driveByte (s : State) (ts : Nat) : List Byte := put1 (maskOf 8 (fun j => s.hwy.drive.contains (ts + j)))

/-- The READ_TIMING record of 14 bytes (Table 12-5). -/
def State.timingRecord (s : State) : List Byte :=
  let t := s.tmn
  put1 (timingCode t.state) ++ put1 t.count ++ put1 (bit t.failFlag) ++ put1 (bit t.force) ++ put1 t.grace ++
  put1 (bit t.running) ++ put2 t.elapsed ++ put2 t.blockCount ++
  s.driveByte 0 ++ s.driveByte 8 ++ s.driveByte 16 ++ s.driveByte 24

/-- The READ_POOL record of 178 bytes (Table 12-5). -/
def State.poolRecord (s : State) : List Byte :=
  put1 s.freeCount ++ put1 s.pool.short.length ++ putList 16 s.pool.short ++
  (List.range 16).flatMap (fun p => put1 (s.ecAt p).request ++ put1 (s.granted p) ++ putList 8 (s.segsOf p))

/-- A queue after `k` records have left its head: the overflow flag is cleared, and the attention line stays asserted
while a record is left (R194, R195). -/
def NoticeQueue.fetched (k : Nat) (q : NoticeQueue) : NoticeQueue :=
  { records := q.records.drop k, overflow := false, attention := q.attention && k < q.records.length }

/-- FETCH_NOTICES(max): R194. -/
def fetchNoticesCore (ps : List Byte) (r : Role) (s : State) : State × Answer :=
  let n := field1 ps 0
  let q := s.noticesOf r
  let got := q.records.take n
  if n = 0 ∨ 4 < n then (s, .bare .range)
  else
    (s.setNotices r (q.fetched n),
      .doneWith (put1 (bit q.overflow) ++ put1 got.length ++ got.flatMap noticeBytes))

/-- A READ of a numbered record: RANGE at the limit, else the record as it stands (R192). -/
def readCore (limit : Nat) (record : State → Nat → List Byte) (ps : List Byte) (s : State) : State × Answer :=
  if limit ≤ field1 ps 0 then (s, .bare .range) else (s, .doneWith (record s (field1 ps 0)))

def cmdReadPosition (st : Station) (ps : List Byte) : State → State :=
  takeFrame st 0x70 everyRole (ps.length == 1) true (fun _ => readCore 16 State.positionRecord ps)
def cmdReadStream (st : Station) (ps : List Byte) : State → State :=
  takeFrame st 0x71 everyRole (ps.length == 1) true (fun _ => readCore 24 State.streamRecord ps)
def cmdReadClip (st : Station) (ps : List Byte) : State → State :=
  takeFrame st 0x72 everyRole (ps.length == 1) true (fun _ => readCore 128 State.clipRecord ps)
def cmdReadTiming (st : Station) (ps : List Byte) : State → State :=
  takeFrame st 0x73 everyRole (ps.length == 0) true (fun _ s => (s, .doneWith s.timingRecord))
def cmdReadPool (st : Station) (ps : List Byte) : State → State :=
  takeFrame st 0x74 everyRole (ps.length == 0) true (fun _ s => (s, .doneWith s.poolRecord))
def cmdFetchNotices (st : Station) (ps : List Byte) : State → State :=
  takeFrame st 0x75 everyRole (ps.length == 1) true (fetchNoticesCore ps)

/-- READ_POSITION: an accepted frame with code 0x70 (R192). -/
def execReadPosition (st : Station) (params : List Byte) (s : State) : Host.Outcome State Fault Refusal :=
  .next (cmdReadPosition st params s)
/-- READ_STREAM: an accepted frame with code 0x71 (R136). -/
def execReadStream (st : Station) (params : List Byte) (s : State) : Host.Outcome State Fault Refusal :=
  .next (cmdReadStream st params s)
/-- READ_CLIP: an accepted frame with code 0x72 (R136). -/
def execReadClip (st : Station) (params : List Byte) (s : State) : Host.Outcome State Fault Refusal :=
  .next (cmdReadClip st params s)
/-- READ_TIMING: an accepted frame with code 0x73 (R183). -/
def execReadTiming (st : Station) (params : List Byte) (s : State) : Host.Outcome State Fault Refusal :=
  .next (cmdReadTiming st params s)
/-- READ_POOL: an accepted frame with code 0x74 (R92). -/
def execReadPool (st : Station) (params : List Byte) (s : State) : Host.Outcome State Fault Refusal :=
  .next (cmdReadPool st params s)
/-- FETCH_NOTICES: an accepted frame with code 0x75 (R194). -/
def execFetchNotices (st : Station) (params : List Byte) (s : State) : Host.Outcome State Fault Refusal :=
  .next (cmdFetchNotices st params s)

end Sys2Proof.Machine
end

