-- ==== Sys2Proof/Machine/Startup.lean ====
section
/-! DEFINITION. Device reset and the start-up load (R196, R197, R151, R152): DEVICE_RESET, RESET_PIN_HELD,
STARTUP_STORE_READY, STARTUP_NO_STORE and STARTUP_LOAD_END. -/

namespace Sys2Proof.Machine

/-- DEVICE_RESET: every block at its reset values, the address read from the straps (R196). What waits in the queue
has not been taken and goes on waiting (DESIGN CHOICE, log entry 4). -/
def deviceReset (straps : BitVec 5) (s : State) : State :=
  { State.reset with pending := s.pending, port := { Port.reset with address := straps } }

/-- A queue's attention line deasserted by the held pin (R196). -/
def NoticeQueue.quiet (q : NoticeQueue) : NoticeQueue := { q with attention := false }

/-- RESET_PIN_HELD: nothing is sent on the Control Link, no send timeslot is driven, and the attention lines are
deasserted (R196) (DEDUCED, log entry 27). -/
def resetPinHeld (s : State) : State :=
  { s with
    resetHeld := true
    port := { s.port with sending := none }
    hwy := { s.hwy with tx := Vector.replicate 32 none }
    callQ := s.callQ.quiet
    floorQ := s.floorQ.quiet
    maintQ := s.maintQ.quiet }

/-- The load ends: the part enters READY, and each queue gets STARTED with the result and the skipped count (R152,
R197). -/
def loadEnds (result : Cause) (skipped : Nat) (s : State) : State :=
  let s := { s with mode := .ready, store := { s.store with startup := none } }
  ((s.post .call .started none none (some result) (some skipped)).post .floor .started none none (some result)
    (some skipped)).post .maint .started none none (some result) (some skipped)

/-- The phase of the start-up load. -/
def State.loading (s : State) : Option StartupPhase := s.store.startup.map (·.phase)

/-- STARTUP_STORE_READY: the first ready sends abandon, the next one the read of the 8 header bytes, and each later one a
later read, with a limit of its own (R151) (DESIGN CHOICE, log entry 9). -/
def startupStoreReady (s : State) : State :=
  match s.loading with
  | some .waitReady =>
    s.modStore (fun u => { u with startup := some { phase := .abandoned, clock := 0 }, request := some .abandon })
  | some .abandoned =>
    s.modStore (fun u => { u with startup := some { phase := .reading, clock := 0 }, request := some (.read 0 8) })
  | some .reading => s.modStore (fun u => { u with startup := some { phase := .reading, clock := 0 } })
  | none => s

/-- STARTUP_NO_STORE: the load ends with an empty catalogue (R151). -/
def startupNoStore (s : State) : State := if s.loading.isSome then loadEnds .noStore 0 s else s

/-- The entry count and the entry sum of a directory's header (Table 12-7). -/
def dirCount (dir : List Byte) : Nat := field2 dir 4
def dirSum (dir : List Byte) : Nat := field2 dir 6

/-- The bytes of the counted entries, from address 8 onward (R151). -/
def dirEntries (dir : List Byte) : List Byte := (dir.drop 8).take (12 * dirCount dir)

/-- The header's three checks (R151). -/
def headerValid (dir : List Byte) : Bool :=
  dir.take 4 == signature && dirCount dir ≤ 128 && byteSum (dirEntries dir) == dirSum dir

/-- A directory entry, read by its fields (Table 12-7); the class is none for a byte that names no class. -/
structure DirEntry where
  clip : Nat
  cls : Option ClipClass
  binding : Nat
  start : Nat
  length : Nat
  loop : Nat
  deriving DecidableEq, Repr

/-- The directory entry at place `i`. -/
def dirEntryAt (dir : List Byte) (i : Nat) : DirEntry :=
  let bs := dir.drop (8 + 12 * i)
  { clip := field1 bs 0, cls := classOf (field1 bs 1), binding := field1 bs 2, start := field3 bs 3,
    length := field3 bs 6, loop := field3 bs 9 }

/-- What an entry takes in, if it is valid: a clip id, its body, and the programme it binds (R152). -/
def DirEntry.valid (e : DirEntry) : Option (Nat × ClipBody × Option Nat) :=
  match e.cls with
  | none => none
  | some cls =>
    if 127 < e.clip ∨ !clipFieldsFit cls e.start e.length e.loop then none
    else if e.binding = 255 then some (e.clip, clipBody cls e.start e.length e.loop, none)
    else if 3 < e.binding ∨ cls ≠ .music then none
    else some (e.clip, clipBody cls e.start e.length e.loop, some e.binding)

/-- A clip taken in for programme `k`, unless an earlier entry has bound it (R152). -/
def bindProgramme (k c : Nat) (s : State) : State :=
  if (s.progAt k).clip = none then s.modProg k (fun g => { g with clip := some c, pending := .empty }) else s

/-- Takes in one directory entry; the number counts the skipped ones (R152). A clip id already taken in by this load
is a duplicate: before the load every entry is EMPTY. -/
def takeEntry (dir : List Byte) (acc : State × Nat) (i : Nat) : State × Nat :=
  let (s, skipped) := acc
  match (dirEntryAt dir i).valid with
  | none => (s, skipped + 1)
  | some (c, b, k) =>
    if (s.clipAt c).state ≠ .empty then (s, skipped + 1)
    else
      let s := s.modClip c (fun _ => { state := .active, body := some b, use := 0, fenced := false })
      (match k with
        | some k => bindProgramme k c s
        | none => s, skipped)

/-- The last read of the load: the counted entries, from address 8 onward, where the header's signature and count let
them be read, and the header otherwise (R151) (DESIGN CHOICE, log entry 9). -/
def lastRead (dir : List Byte) : StoreRequest :=
  if dir.take 4 = signature ∧ 0 < dirCount dir ∧ dirCount dir ≤ 128 then .read 8 (12 * dirCount dir) else .read 0 8

/-- STARTUP_LOAD_END: the directory, read complete from address 0, is checked and taken in (R151, R152)
(DESIGN CHOICE, log entry 30). -/
def startupLoadEnd (dir : List Byte) (s : State) : State :=
  if (s.loading = some .abandoned ∨ s.loading = some .reading) ∧ dir.length = Config.imageBytes then
    let s := s.modStore (fun u => { u with request := some (lastRead dir) })
    if headerValid dir then
      let (s, skipped) := (List.range (dirCount dir)).foldl (takeEntry dir) (s, 0)
      loadEnds .ok skipped s
    else loadEnds .bad 0 s
  else s

/-- DEVICE_RESET (R196). -/
def execDeviceReset (straps : BitVec 5) (s : State) : Host.Outcome State Fault Refusal := .next (deviceReset straps s)
/-- RESET_PIN_HELD (R196). -/
def execResetPinHeld (s : State) : Host.Outcome State Fault Refusal := .next (resetPinHeld s)
/-- STARTUP_STORE_READY (R151). -/
def execStartupStoreReady (s : State) : Host.Outcome State Fault Refusal := .next (startupStoreReady s)
/-- STARTUP_NO_STORE (R151). -/
def execStartupNoStore (s : State) : Host.Outcome State Fault Refusal := .next (startupNoStore s)
/-- STARTUP_LOAD_END (R152). -/
def execStartupLoadEnd (dir : List Byte) (s : State) : Host.Outcome State Fault Refusal := .next (startupLoadEnd dir s)

end Sys2Proof.Machine
end

