-- ==== Sys2Proof/Machine/Supervision.lean ====
section
/-! DEFINITION. Supervision (chapter 2): MONITOR, UNMONITOR, WHISPER_PROMPT and CLEAR_WHISPERS. -/

namespace Sys2Proof.Machine

/-- Both records of a relation are written with one mode and one live whisper gain (R23, R25, R26). -/
def relate (sup agent : Nat) (m : MonitorMode) (gain : Option Nat) (s : State) : State :=
  (s.modPos sup (fun x => { x with relation := some { form := .monitoring, other := agent, mode := m, gain := gain } })).modPos
    agent (fun x => { x with relation := some { form := .monitoredBy, other := sup, mode := m, gain := gain } })

/-- MONITOR(s, a, mode, gain): R24 to R26. -/
def monitorCore (ps : List Byte) (s : State) : State × Answer :=
  let sup := field1 ps 0
  let a := field1 ps 1
  let g := field2 ps 3
  match modeOf (field1 ps 2) with
  | none => (s, .bare .range)
  | some m =>
    if 15 < sup ∨ 15 < a then (s, .bare .range)
    else if sup = a then (s, .bare .range)
    else if (s.posAt a).call = .free ∨ (s.posAt sup).call ≠ .free then (s, .bare .state)
    else if (s.supervisorOf a).getD sup ≠ sup ∨ (s.agentOf sup).getD a ≠ a then (s, .bare .inUse)
    else
      match m with
      | .listen => (relate sup a m none s, .done)
      | .whisper | .barge =>
        (relate sup a m (some (clampTo Config.gainMost g)) s, .clampedDone (Config.gainMost < g))

/-- UNMONITOR(a): R27. -/
def unmonitorCore (ps : List Byte) (s : State) : State × Answer :=
  let a := field1 ps 0
  if 15 < a then (s, .bare .range)
  else
    match s.supervisorOf a with
    | some b => (unrelate a b s, .done)
    | none => (s, .bare .state)

/-- WHISPER_PROMPT in INTERRUPT mode, before the head is served: the stream stops, a full queue drops its tail, and
the new item goes to the head (R36). -/
def interruptWhispers (p : Nat) (it : WhisperItem) (s : State) : State :=
  let s := match s.streamOf .whisper p with
    | some i => stopSlot i .interrupted s
    | none => s
  let q := s.queueAt p
  let s := if Config.whisperRoom ≤ q.length then
      s.post .floor .whisperEnded (some p) (q.getLast?.map (·.clip)) (some .dropped) none
    else s
  s.setQueue p (it :: q.take (Config.whisperRoom - 1))

/-- WHISPER_PROMPT(p, clip, gain, mode): R34 to R38. -/
def whisperPromptCore (ps : List Byte) (s : State) : State × Answer :=
  let p := field1 ps 0
  let c := field1 ps 1
  let g := field2 ps 2
  match admissionOf (field1 ps 4) with
  | none => (s, .bare .range)
  | some m =>
    let e := s.clipAt c
    let it : WhisperItem := { clip := c, gain := clampTo Config.gainMost g, admission := m }
    if 15 < p ∨ 127 < c then (s, .bare .range)
    else if (s.posAt p).call = .free then (s, .bare .state)
    else if e.state ≠ .active then (s, .bare .state)
    else if e.body.map (·.cls) ≠ some .whisper then (s, .bare .cls)
    else if e.fenced then (s, .bare .inUse)
    else
      match m with
      | .append =>
        if Config.whisperRoom ≤ (s.queueAt p).length then (s, .bare .queueFull)
        else (headReady p (s.setQueue p (s.queueAt p ++ [it])), .clampedDone (Config.gainMost < g))
      | .interrupt => (headReady p (interruptWhispers p it s), .clampedDone (Config.gainMost < g))

/-- CLEAR_WHISPERS(p): R39. -/
def clearWhispersCore (ps : List Byte) (s : State) : State × Answer :=
  let p := field1 ps 0
  if 15 < p then (s, .bare .range)
  else (flushWhispers p s, .doneWith (put1 (flushCount p s)))

def cmdMonitor (st : Station) (ps : List Byte) : State → State :=
  takeFrame st 0x20 [.floor] (ps.length == 5) false (fun _ => monitorCore ps)
def cmdUnmonitor (st : Station) (ps : List Byte) : State → State :=
  takeFrame st 0x21 [.floor] (ps.length == 1) false (fun _ => unmonitorCore ps)
def cmdWhisperPrompt (st : Station) (ps : List Byte) : State → State :=
  takeFrame st 0x22 [.floor] (ps.length == 5) false (fun _ => whisperPromptCore ps)
def cmdClearWhispers (st : Station) (ps : List Byte) : State → State :=
  takeFrame st 0x23 [.floor] (ps.length == 1) false (fun _ => clearWhispersCore ps)

/-- MONITOR: an accepted frame with code 0x20 (R24). -/
def execMonitor (st : Station) (params : List Byte) (s : State) : Host.Outcome State Fault Refusal :=
  .next (cmdMonitor st params s)
/-- UNMONITOR: an accepted frame with code 0x21 (R27). -/
def execUnmonitor (st : Station) (params : List Byte) (s : State) : Host.Outcome State Fault Refusal :=
  .next (cmdUnmonitor st params s)
/-- WHISPER_PROMPT: an accepted frame with code 0x22 (R34). -/
def execWhisperPrompt (st : Station) (params : List Byte) (s : State) : Host.Outcome State Fault Refusal :=
  .next (cmdWhisperPrompt st params s)
/-- CLEAR_WHISPERS: an accepted frame with code 0x23 (R39). -/
def execClearWhispers (st : Station) (params : List Byte) (s : State) : Host.Outcome State Fault Refusal :=
  .next (cmdClearWhispers st params s)

end Sys2Proof.Machine
end

