-- ==== Sys2Proof/Machine/MixEngine.lean ====
section
/-! DEFINITION. The Mix Engine (chapter 3): the terms of one position and the samples X, E and T formed from the
sources of the previous frame, as pure readings of the state when the frame is formed. -/

namespace Sys2Proof.Machine

/-- The customer sample that the frame just ended gives a position: the decoded byte of the receive timeslot in its
binding; 0 without a binding, and 0 when that frame was not a line frame (R41, R168) (DEDUCED, log entry 39). -/
def State.customer (s : State) (p : Nat) : Int :=
  match (s.posAt p).binding, s.hwy.rx with
  | some b, some rx => lawDecode (tget rx b.rx)
  | _, _ => 0

/-- The sample that a slot gives the frame that is formed: what it yielded in the previous frame, and 0 while it is IDLE
or PRIMING (R41, R50, R117) (DEDUCED, log entry 17). -/
def Slot.sample (x : Slot) : Int := if x.state = .idle ∨ x.state = .priming then 0 else x.out

/-- The output sample of the stream of kind `k` of position `p` (R41); 0 when there is none
(DEDUCED, log entry 18). -/
def State.streamOut (s : State) (k : StreamKind) (p : Nat) : Int :=
  match s.streamOf k p with
  | some i => (s.slotAt i).sample
  | none => 0

/-- The gain of the stream of kind `k` of position `p`. -/
def State.streamGain (s : State) (k : StreamKind) (p : Nat) : Nat :=
  match s.streamOf k p with
  | some i => (s.slotAt i).gain.getD 0
  | none => 0

/-- The stream's term: its output sample times its gain (R44, R45, R49). -/
def State.streamTerm (s : State) (k : StreamKind) (p : Nat) : Int := term (s.streamOut k p) (s.streamGain k p)

/-- The agent hears p's caller stream (R44). -/
def State.callerHeard (s : State) (p : Nat) : Bool :=
  match s.streamOf .caller p with
  | some i => (s.slotAt i).hears.getD false
  | none => false

/-- The mode of the relation in which `p` is the monitored agent. -/
def State.monitorMode (s : State) (p : Nat) : Option MonitorMode :=
  match (s.posAt p).relation with
  | some r => if r.form = .monitoredBy then some r.mode else none
  | none => none

/-- A supervisor speaks to `p` in WHISPER or BARGE (R29). -/
def State.coached (s : State) (p : Nat) : Bool :=
  s.monitorMode p == some .whisper || s.monitorMode p == some .barge

/-- The processed microphone of the supervisor of `p`. -/
def State.supervisorMic (s : State) (p : Nat) : Int :=
  match s.supervisorOf p with
  | some b => (s.mixAt b).processed
  | none => 0

/-- The live whisper term (R45). -/
def State.liveWhisper (s : State) (p : Nat) : Int :=
  if s.coached p then term (s.supervisorMic p) (((s.posAt p).relation.bind (·.gain)).getD 0) else 0

/-- The whisper sum S_p, exact (R45). -/
def State.whisperSum (s : State) (p : Nat) : Int := s.liveWhisper p + s.streamTerm .whisper p

/-- The guarded whisper sum G_p (R43). -/
def State.guarded (s : State) (p : Nat) : Int := scaled (s.whisperSum p) (tableGain (s.levAt p).guard)

/-- The listen terms of a supervisor (R46). -/
def State.listenTerms (s : State) (p : Nat) : Int :=
  match s.agentOf p with
  | some a =>
    (s.mixAt a).processed +
      (if (s.posAt a).call = .connected then term (s.customer a) (s.posAt a).rxGain else 0)
  | none => 0

/-- The reference sample X_p (R44, Table 3-3). -/
def State.reference (s : State) (p : Nat) : Int :=
  let x := s.posAt p
  sat16 ((if x.call = .connected then term (s.customer p) x.rxGain else 0) + s.guarded p +
    (if s.callerHeard p then s.streamTerm .caller p else 0) + s.listenTerms p)

/-- The earpiece sample E_p (R47). -/
def State.earpiece (s : State) (p : Nat) : Int :=
  sat16 (s.reference p + term (s.mixAt p).raw (s.posAt p).sidetone)

/-- The agent microphone term of the trunk: the transmit gain, then the mute ramp, each rounded (R49). -/
def State.agentTerm (s : State) (p : Nat) : Int :=
  let x := s.posAt p
  roundDiv (term (s.mixAt p).processed x.txGain * x.ramp) Config.rampTop

/-- p's caller stream is PLAYING or ENDING (R50). -/
def State.promptPlays (s : State) (p : Nat) : Bool :=
  match s.streamOf .caller p with
  | some i => (s.slotAt i).state == .playing || (s.slotAt i).state == .ending
  | none => false

/-- The programme output H_k: the sample of slot S_k, and 0 while the programme has no current clip (R41, R50, R56). Where
a pending NONE has removed the clip and the slot still plays out its buffer, R134 alone could be read to let it be heard;
the model follows R50 (DEDUCED, log entry 17). -/
def State.programmeOut (s : State) (k : Option Nat) : Int :=
  match k with
  | some k => if (s.progAt k).clip.isSome then (s.slotAt k).sample else 0
  | none => 0

/-- The trunk-send sample T_p: none for a FREE position, the sum of R49 for a CONNECTED one, the one term of R50 for a
HELD one. -/
def State.trunkSend (s : State) (p : Nat) : Option Int :=
  let x := s.posAt p
  match x.call with
  | .free => none
  | .connected =>
    some (sat16 (s.agentTerm p + (if s.monitorMode p = some .barge then s.supervisorMic p else 0) +
      s.streamTerm .caller p))
  | .held => some (sat16 (if s.promptPlays p then s.streamTerm .caller p else s.programmeOut x.hold))

/-- A whisper source is present for `p` in the frame (R53). -/
def State.whisperPresent (s : State) (p : Nat) : Bool :=
  s.coached p ||
    (match s.streamOf .whisper p with
     | some i => (s.slotAt i).state.sounding
     | none => false)

/-- The mix record of `p` after the frame is formed: the sums, and the block totals (R54, R55). The microphone
samples have been used, and those of the new frame have not come (DEDUCED, log entry 38). -/
def State.formed (s : State) (p : Nat) : Mix :=
  let m := s.mixAt p
  { x := s.reference p, e := s.earpiece p, t := s.trunkSend p,
    energy := m.energy + (s.guarded p).natAbs * (s.guarded p).natAbs,
    presence := m.presence + bit (s.whisperPresent p), raw := 0, processed := 0 }

/-- Every position's samples are formed from the same state, without any order among them (R40). -/
def formAll (s : State) : State := forPositions (fun p t => t.modMix p (fun _ => s.formed p)) s

end Sys2Proof.Machine
end

