-- ==== Sys2Proof/Machine/Frame.lean ====
section
/-! DEFINITION. Frames and blocks: the work of a frame boundary (FRAME_BOUNDARY), of a block boundary
(BLOCK_BOUNDARY), and the expiry of the grace timer (GRACE_TIMER_EXPIRY). -/

namespace Sys2Proof.Machine

/-! ### Block boundary (R182) and grace timer (R178) -/

/-- A running grace timer raises its elapsed count, up to 5100, at a block boundary (R178). -/
def Timing.countGrace (t : Timing) : Timing :=
  { t with elapsed := if t.running && t.elapsed < Config.elapsedMost then t.elapsed + 1 else t.elapsed }

/-- The work of a block boundary: the block count rises, the grace timer counts, the block ends in the Level and
Bleed Unit and the Mix Engine (R182, R178, R97 to R104). -/
def blockWork (s : State) : State :=
  blockEndLevels (s.modTmn (fun t =>
    Timing.countGrace { t with blockCount := if t.blockCount = 65535 then 0 else t.blockCount + 1, frames := 0 }))

/-- The 40 frames of the block have begun, and the boundary that ends the last of them ends the block (R182). -/
def State.blockComplete (s : State) : Bool := Config.blockFrames ≤ s.tmn.frames

/-- The grace timer has reached its limit: it runs, its period is above 0, and its elapsed count is at 20 times the
period or above (R178, R179). -/
def Timing.graceOver (t : Timing) : Bool := t.running && 0 < t.grace && Config.graceUnit * t.grace ≤ t.elapsed

/-- A grace timer that has reached its limit expires: it stops, and the calls are released (R178, R14). -/
def graceExpiry (s : State) : State :=
  if s.tmn.graceOver then forcedRelease (s.modTmn (fun t => { t with running := false })) else s

/-- BLOCK_BOUNDARY: after the words of its last frame the block ends, and an expiry is taken at the rise of the elapsed
count (R154, R178, R182) (DESIGN CHOICE, log entry 12). -/
def blockBoundary (s : State) : State := if s.blockComplete then graceExpiry (blockWork (missingWords s)) else s

/-- GRACE_TIMER_EXPIRY: a timer at its limit expires, and one that reaches it at the block boundary which is due expires
at that boundary (R178, R182) (DESIGN CHOICE, log entry 12). -/
def graceTimerExpiry (s : State) : State :=
  if s.tmn.graceOver then graceExpiry s
  else if s.tmn.countGrace.graceOver then blockBoundary s
  else s

/-! ### Frame boundary (R173) -/

/-- The reference of the frame joins p's history, or 0 while the link is not UP (R48, R59). -/
def Canceller.push (x : Int) (c : Canceller) : Canceller :=
  { c with history := x :: c.history.take 255, gone := c.history.getD 255 0 }

/-- The history and the outbound headset word of `p` for the frame (R59, R155). -/
def sendHeadset (p : Nat) (s : State) : State :=
  let up : Bool := (s.linkAt p).state == .up
  let s := s.modEc p (Canceller.push (if up then (s.mixAt p).x else 0))
  s.modLink p (fun l => { l with outWord := outboundWord (if up then (s.mixAt p).e else 0) (s.posAt p).effMute })

/-- The position bound to send timeslot `ts`. -/
def State.senderOf (s : State) (ts : Nat) : Option Nat :=
  (List.range 16).find? (fun p => ((s.posAt p).binding.map (·.tx)) == some ts)

/-- The byte driven on send timeslot `ts` in a line frame (R169). -/
def State.sendByte (s : State) (ts : Nat) : Option Byte :=
  match s.senderOf ts with
  | some p => (s.mixAt p).t.map lawEncode
  | none => none

/-- The Highway Port for the frame that begins: what it receives, what it drives, and the drive set (R167 to R169).
While the reset pin is held no send timeslot is driven (R196). -/
def sendHighway (rx : Option (Tab 32 Byte)) (s : State) : State :=
  let drive := (List.range 32).filter (fun ts => (s.senderOf ts).isSome)
  let tx : Tab 32 (Option Byte) :=
    if rx.isSome ∧ ¬ s.resetHeld then
      (List.range 32).foldl (fun t ts => tset t ts (s.sendByte ts)) (Vector.replicate 32 none)
    else Vector.replicate 32 none
  { s with hwy := { rx := rx, tx := tx, drive := drive } }

/-- What the receive timeslots carry in the frame that begins; none when it is not a line frame (R173). -/
def Timing.lineOf (t : Timing) : Option (Tab 32 Byte) :=
  match t.boundary with
  | some (.line rx) => some rx
  | _ => none

/-- The frame timer returns to 0, and one more frame of the block has begun (R173, R182). -/
def Timing.frameBegun (t : Timing) : Timing := { t with frameTimer := 0, frames := t.frames + 1, boundary := none }

/-- The work of one frame: ramps step, the samples are formed, the words and bytes go out, and each slot yields one
sample; no port has yielded its word of the new frame (R19, R40, R59, R155, R169, R122, R154)
(DEDUCED, log entry 14). -/
def frameWork (s : State) : State :=
  let rx := s.tmn.lineOf
  let s := forPositions muteStep s
  let s := formAll s
  let s := forPositions sendHeadset s
  let s := sendHighway rx s
  let s := forSlots slotFrame s
  (s.modTmn Timing.frameBegun).setWords 0

/-- A frame may begin: on internal timing, or at a boundary that an accepted sync or a loss has made; in LOCKED the
frame timer makes no boundary of its own (R173). -/
def Timing.mayBegin (t : Timing) : Bool := t.state != .locked || t.boundary.isSome

/-- FRAME_BOUNDARY: after the words of the frame that ends, and the end of a complete block, the new frame begins (R105,
R154, R173, R182) (DESIGN CHOICE, log entry 12). -/
def frameBoundary (s : State) : State := if s.tmn.mayBegin then frameWork (blockBoundary (missingWords s)) else s

/-- FRAME_BOUNDARY (R173). -/
def execFrameBoundary (s : State) : Host.Outcome State Fault Refusal := .next (frameBoundary s)
/-- BLOCK_BOUNDARY (R182). -/
def execBlockBoundary (s : State) : Host.Outcome State Fault Refusal := .next (blockBoundary s)
/-- GRACE_TIMER_EXPIRY (R178). -/
def execGraceTimerExpiry (s : State) : Host.Outcome State Fault Refusal := .next (graceTimerExpiry s)

end Sys2Proof.Machine
end

