-- ==== Sys2Proof/Machine/TimingMonitor.lean ====
section
/-! DEFINITION. The Timing Monitor (chapter 10): LINE_SYNC, ACQUISITION_TIMEOUT, CLOCK_FAIL, and the commands
SET_GRACE, FORCE_CLOCK_FAIL and ACK_CLOCK_FAIL. -/

namespace Sys2Proof.Machine

/-- A boundary falls at this event: a complete block ends, with an expiry that falls at it, the frame timer returns to 0,
and the next frame is the one given (R173, R182) (DESIGN CHOICE, log entry 12). -/
def makeBoundary (n : NextFrame) (s : State) : State :=
  (blockBoundary s).modTmn (fun t => { t with frameTimer := 0, boundary := some n })

/-- CLOCK_FAIL or CLOCK_LOCKED to CALL and to MAINT (R183). -/
def postBoth (k : NoticeKind) (s : State) : State :=
  (s.post .call k none none none none).post .maint k none none none none

/-- The 16th sync in a row takes the monitor into LOCKED; at a phase of 1024 or more it is also a boundary, and the
frame it begins is a line frame; the end of a block at that boundary, with an expiry, comes before the lock (R173, R174,
R181) (DESIGN CHOICE, log entry 16). -/
def lock (rx : Tab 32 Byte) (s : State) : State :=
  let s := if Config.lockPhase ≤ s.tmn.frameTimer then makeBoundary (.line rx) s else s
  postBoth .clockLocked
    (s.modTmn (fun t => { t with state := .locked, count := Config.lockCount, syncTicks := 0, running := false }))

/-- LINE_SYNC: a sync is judged by the sync tick counter and the timing state (R174, R175). While the force flag is
on every sync is treated as absent (R177) (DEDUCED, log entry 34). -/
def lineSync (rx : Tab 32 Byte) (s : State) : State :=
  let t := s.tmn
  if t.force then s
  else
    match t.state with
    | .freeRun => s.modTmn (fun t => { t with state := .acquiring, count := 1, syncTicks := 0 })
    | .acquiring =>
      if Config.syncLeast ≤ t.syncTicks ∧ t.syncTicks ≤ Config.acquireMost then
        if Config.lockCount ≤ t.count + 1 then lock rx s
        else s.modTmn (fun t => { t with count := t.count + 1, syncTicks := 0 })
      else s.modTmn (fun t => { t with count := 1, syncTicks := 0 })
    | .locked =>
      if Config.syncLeast ≤ t.syncTicks ∧ t.syncTicks ≤ Config.acceptMost then
        (makeBoundary (.line rx) s).modTmn (fun t => { t with syncTicks := 0 })
      else s

/-- ACQUISITION_TIMEOUT: back to FREE_RUN, silently (R174). -/
def acquisitionTimeout (s : State) : State :=
  if s.tmn.state = .acquiring then
    s.modTmn (fun t => { t with state := .freeRun, count := 0, syncTicks := 0 })
  else s

/-- CLOCK_FAIL: the loss of the line clock is declared (R176). The grace timer starts after a block boundary at the
same tick is taken (R178) (DESIGN CHOICE, log entry 7). -/
def clockFail (s : State) : State :=
  if s.tmn.state = .locked then
    let s := makeBoundary .internal s
    postBoth .clockFail
      (s.modTmn (fun t =>
        { t with state := .freeRun, count := 0, syncTicks := 0, failFlag := true, running := true,
                 elapsed := if t.running then t.elapsed else 0 }))
  else s

/-- SET_GRACE(g): R179. A running timer that is already at the new limit expires at this event. -/
def setGraceCore (ps : List Byte) (s : State) : State × Answer :=
  let g := field2 ps 0
  (graceExpiry (s.modTmn (fun t => { t with grace := clampTo 255 g })), .clampedDone (255 < g))

/-- FORCE_CLOCK_FAIL(flag): R177. -/
def forceClockFailCore (ps : List Byte) (s : State) : State × Answer :=
  let f := field1 ps 0
  if 1 < f then (s, .bare .range) else (s.modTmn (fun t => { t with force := f == 1 }), .done)

/-- ACK_CLOCK_FAIL: R180. -/
def ackClockFailCore (s : State) : State × Answer :=
  if s.tmn.failFlag then (s.modTmn (fun t => { t with failFlag := false, running := false, elapsed := 0 }), .done)
  else (s, .done)

def cmdSetGrace (st : Station) (ps : List Byte) : State → State :=
  takeFrame st 0x60 [.maint] (ps.length == 2) false (fun _ => setGraceCore ps)
def cmdForceClockFail (st : Station) (ps : List Byte) : State → State :=
  takeFrame st 0x61 [.maint] (ps.length == 1) false (fun _ => forceClockFailCore ps)
def cmdAckClockFail (st : Station) (ps : List Byte) : State → State :=
  takeFrame st 0x62 [.call, .maint] (ps.length == 0) true (fun _ => ackClockFailCore)

/-- LINE_SYNC (R174, R175). -/
def execLineSync (rx : Tab 32 Byte) (s : State) : Host.Outcome State Fault Refusal := .next (lineSync rx s)
/-- ACQUISITION_TIMEOUT (R174). -/
def execAcquisitionTimeout (s : State) : Host.Outcome State Fault Refusal := .next (acquisitionTimeout s)
/-- CLOCK_FAIL (R176). -/
def execClockFail (s : State) : Host.Outcome State Fault Refusal := .next (clockFail s)
/-- SET_GRACE: an accepted frame with code 0x60 (R179). -/
def execSetGrace (st : Station) (params : List Byte) (s : State) : Host.Outcome State Fault Refusal :=
  .next (cmdSetGrace st params s)
/-- FORCE_CLOCK_FAIL: an accepted frame with code 0x61 (R177). -/
def execForceClockFail (st : Station) (params : List Byte) (s : State) : Host.Outcome State Fault Refusal :=
  .next (cmdForceClockFail st params s)
/-- ACK_CLOCK_FAIL: an accepted frame with code 0x62 (R180). -/
def execAckClockFail (st : Station) (params : List Byte) (s : State) : Host.Outcome State Fault Refusal :=
  .next (cmdAckClockFail st params s)

end Sys2Proof.Machine
end

