-- ==== Sys2Proof/Machine/ControlLink.lean ====
section
/-! DEFINITION. The Control Link (chapter 11): the receiver that judges characters and makes frames of them (R184 to R187), the
command that an accepted frame is (R188), and the reply on its way (R189, R190). -/

namespace Sys2Proof.Machine

/-! ### From an accepted frame to its command (R188) -/

/-- A command code and what its command does with an accepted frame of a station and its parameters. -/
structure Handler where
  code : Byte
  take : Station → List Byte → State → State

/-- The commands of Table 12-1, in its order. -/
def handlers : List Handler :=
  [⟨0x10, cmdConnect⟩, ⟨0x11, cmdHold⟩, ⟨0x12, cmdResume⟩, ⟨0x13, cmdRelease⟩, ⟨0x14, cmdMute⟩,
   ⟨0x15, cmdSetCallGains⟩, ⟨0x16, cmdSetSidetone⟩, ⟨0x20, cmdMonitor⟩, ⟨0x21, cmdUnmonitor⟩,
   ⟨0x22, cmdWhisperPrompt⟩, ⟨0x23, cmdClearWhispers⟩, ⟨0x30, cmdSetEc⟩, ⟨0x31, cmdResetEc⟩, ⟨0x32, cmdSetLevels⟩,
   ⟨0x33, cmdSetNeighbours⟩, ⟨0x40, cmdClipLoad⟩, ⟨0x41, cmdClipDelete⟩, ⟨0x42, cmdSetProgramme⟩,
   ⟨0x43, cmdCallerPrompt⟩, ⟨0x44, cmdStopPrompt⟩, ⟨0x50, cmdStoreErase⟩, ⟨0x51, cmdStoreWrite⟩,
   ⟨0x52, cmdStoreRead⟩, ⟨0x53, cmdSaveDirectory⟩, ⟨0x60, cmdSetGrace⟩, ⟨0x61, cmdForceClockFail⟩,
   ⟨0x62, cmdAckClockFail⟩, ⟨0x70, cmdReadPosition⟩, ⟨0x71, cmdReadStream⟩, ⟨0x72, cmdReadClip⟩,
   ⟨0x73, cmdReadTiming⟩, ⟨0x74, cmdReadPool⟩, ⟨0x75, cmdFetchNotices⟩]

/-- The command that a code names; none for a code that names no command. -/
def handlerOf (code : Byte) : Option Handler := handlers.find? (fun h => h.code == code)

/-- An accepted frame that names no command, or whose station has no role: only the reply is owed (R188). -/
def refuseFrame (st : Station) (body : List Byte) (status : Status) (s : State) : State :=
  s.accepted.owe st (body.headD 0) (.bare status)

/-- UNKNOWN_COMMAND (R188): a station without a role is refused ROLE, then a code that names no command UNKNOWN. A
frame that passes both checks is not this event (DEDUCED, log entry 35). -/
def unknownCommand (st : Station) (body : List Byte) (s : State) : State :=
  if stationRole st = none then refuseFrame st body .role s
  else if (handlerOf (body.headD 0)).isNone then refuseFrame st body .unknown s
  else s

/-- The frame is taken: its command acts, or it is refused (R188). -/
def takeBody (st : Station) (body : List Byte) (s : State) : State :=
  match body with
  | [] => unknownCommand st [] s
  | c :: ps =>
    match handlerOf c with
    | some h => h.take st ps s
    | none => unknownCommand st (c :: ps) s

/-! ### The receiver (Table 11-2) -/

/-- The station that begins a command frame; station 0 begins a reply (R185). -/
def stationOf : Nat → Option Station
  | 1 => some .st1 | 2 => some .st2 | 3 => some .st3 | 4 => some .st4 | 5 => some .st5 | 6 => some .st6
  | 7 => some .st7 | _ => none

/-- The station number of a station (Table 11-3). -/
def stationNumber : Station → Nat
  | .st1 => 1 | .st2 => 2 | .st3 => 3 | .st4 => 4 | .st5 => 5 | .st6 => 6 | .st7 => 7

/-- A good header character is examined (R185): station 1 to 7 and the part's own address begin a frame. -/
def Port.examine (d : Byte) (q : Port) : Port :=
  match stationOf (d.toNat % 8) with
  | some st =>
    if d.toNat / 8 = q.address.toNat then { q.toSleep with state := .length, station := some st, sum := d }
    else q.toSleep
  | none => q.toSleep

/-- The length character (R185, R186). -/
def Port.takeLength (d : Byte) (q : Port) : Port :=
  if 1 ≤ d.toNat ∧ d.toNat ≤ 40 then
    { q with state := .body, length := d.toNat, sum := q.sum + d, idle := 0 }
  else q.toSleep

/-- A body character (R185). -/
def Port.takeBodyByte (d : Byte) (q : Port) : Port :=
  { q with state := if q.length ≤ q.body.length + 1 then .check else .body, body := q.body ++ [d], sum := q.sum + d,
           idle := 0 }

/-- The check character: the frame is accepted and taken, or abandoned (R185, R186). -/
def takeCheck (d : Byte) (s : State) : State :=
  match s.port.station with
  | some st => if s.port.sum + d = 0 then takeBody st s.port.body s else s.modPort Port.toSleep
  | none => s.modPort Port.toSleep

/-- A frame is in progress (R186). -/
def Port.inFrame (q : Port) : Bool := q.state != .sleep

/-- A character has ended: none is under way, and the wire has been high for its last bits that are 1, unless it is low right
after them (R189). -/
def Port.heard (ch : BitVec 12) (low : Nat) (q : Port) : Port :=
  { q with quiet := if low = 0 then Config.bitTicks (highAfter ch) else 0, coming := none }

/-- A good character: a header is examined, and a data byte goes to the receiver's state (R185, R186). -/
def takeCharacter (ch : BitVec 12) (s : State) : State :=
  let d := charData ch
  if charMarker ch then s.modPort (Port.examine d)
  else
    match s.port.state with
    | .sleep => s
    | .length => s.modPort (Port.takeLength d)
    | .body => s.modPort (Port.takeBodyByte d)
    | .check => takeCheck d s

/-- A character arrives and is judged: a good one is taken, a bad one abandons the frame in progress and is passed over in
SLEEP (R184 to R186). While it sends, the part takes no characters (R190) (DEDUCED, log entry 24). -/
def characterArrives (ch : BitVec 12) (low : Nat) (s : State) : State :=
  if s.port.sending.isSome then s.modPort (fun q => { q with coming := none })
  else
    let s := s.modPort (Port.heard ch low)
    if charGood ch then takeCharacter ch s
    else if s.port.inFrame then s.modPort Port.toSleep
    else s

/-- LINK_BREAK: the receiver goes to SLEEP, the reply owed is dropped, the reply being sent is cut off (R184, R187)
(DEDUCED, log entries 22 and 23). -/
def linkBreak (s : State) : State :=
  s.modPort (fun q => { q.toSleep with quiet := 0, coming := none, owed := none, sending := none })

/-- A falling edge of an idle wire begins a character: it is under way, and the wire is not high (R184, R189). While one is
under way no other begins, and while the part sends it takes none (R190) (DEDUCED, log entry 24). -/
def characterBegins (ch : BitVec 12) (low : Nat) (s : State) : State :=
  if s.port.sending.isSome || s.port.coming.isSome then s
  else s.modPort (fun q => { q with quiet := 0, coming := some { ch := ch, low := low, clock := 0 } })

/-- A character ends: its 12 bits are judged, so one that is not good is handled as a bad one; and a wire that has then been
low for 24 bit times in a row is a break, whatever was being received (R184 to R187). -/
def characterEnds (ch : BitVec 12) (low : Nat) (s : State) : State :=
  if Config.breakBits ≤ lowAfter ch + low then linkBreak (characterArrives ch 0 s) else characterArrives ch low s

/-- GOOD_CHARACTER (R184 to R187): a character begins or ends (DESIGN CHOICE, log entry 46). -/
def goodCharacter (ch : BitVec 12) (w : CharacterTime) (s : State) : State :=
  match w with
  | .begins low => characterBegins ch low s
  | .ended low => characterEnds ch low s

/-- The character under way has ended: its 12 bit times have passed, and of the low wire after it as much as it takes to
judge a break (R184). -/
def Coming.over (c : Coming) : Bool :=
  Config.ticksOver (Config.characterBits + min c.low (Config.breakBits - lowAfter c.ch)) ≤ c.clock

/-- The character that abandons a frame (R186). -/
def abandoning : AbandonCause → BitVec 12
  | .badCharacter ch => ch
  | .badLength n => character false n
  | .failedCheck c => character false c
  | .newHeader h => character true h

/-- The character abandons the frame in progress in the receiver's state (R186). -/
def Port.abandons (q : Port) : AbandonCause → Bool
  | .badCharacter ch => q.inFrame && !charGood ch
  | .badLength n => q.state == .length && (n.toNat == 0 || 40 < n.toNat)
  | .failedCheck c => q.state == .check && q.sum + c != 0
  | .newHeader _ => q.inFrame

/-- RECEIVER_IDLE_TIMEOUT (R186). -/
def receiverIdleTimeout (s : State) : State := if s.port.inFrame then s.modPort Port.toSleep else s

/-- FRAME_ABANDONED (R186): each cause, where it can come, is the arrival of its character (log entry 6). -/
def frameAbandoned (why : AbandonCause) (s : State) : State :=
  if s.port.abandons why then characterArrives (abandoning why) 0 s else s

/-! ### The reply (R189, R190) -/

/-- The moment at which the part begins its reply has come: 12 bit times after the event that the reply waited for, with
the wire high for the last 12, so with no character under way (R189) (DESIGN CHOICE, log entry 25). -/
def Port.mayReply (q : Port) : Bool :=
  q.owed.any (fun o => !o.waiting && Config.replyGap ≤ o.clock) && Config.replyGap ≤ q.quiet && q.coming.isNone &&
    q.sending.isNone

/-- REPLY_START (R189): the reply owed is sent, unless the reset pin is held (R196). -/
def replyStart (s : State) : State :=
  match s.port.owed with
  | some o =>
    if s.port.mayReply && !s.resetHeld then
      s.modPort (fun q => { q with owed := none, sending := some (replyFrame q.address o) })
    else s
  | none => s

/-- REPLY_DROP (R189). -/
def replyDrop (s : State) : State :=
  match s.port.owed with
  | some o => if o.waiting then s else s.modPort (fun q => { q with owed := none })
  | none => s

/-- REPLY_COLLISION (R190). -/
def replyCollision (s : State) : State :=
  if s.port.sending.isSome then s.modPort (fun q => { q.toSleep with quiet := 0, sending := none }) else s

/-- REPLY_END (R190): where a reply is being sent, it has been sent in full; the wire's high time counts from here. -/
def replyEnd (s : State) : State :=
  if s.port.sending.isSome then s.modPort (fun q => { q with quiet := 0, sending := none }) else s

/-- GOOD_CHARACTER (R185). -/
def execGoodCharacter (ch : BitVec 12) (w : CharacterTime) (s : State) : Host.Outcome State Fault Refusal :=
  .next (goodCharacter ch w s)
/-- RECEIVER_IDLE_TIMEOUT (R186). -/
def execReceiverIdleTimeout (s : State) : Host.Outcome State Fault Refusal := .next (receiverIdleTimeout s)
/-- FRAME_ABANDONED (R186). -/
def execFrameAbandoned (why : AbandonCause) (s : State) : Host.Outcome State Fault Refusal :=
  .next (frameAbandoned why s)
/-- LINK_BREAK (R187). -/
def execLinkBreak (s : State) : Host.Outcome State Fault Refusal := .next (linkBreak s)
/-- UNKNOWN_COMMAND (R188). -/
def execUnknownCommand (st : Station) (body : List Byte) (s : State) : Host.Outcome State Fault Refusal :=
  .next (unknownCommand st body s)
/-- REPLY_START (R189). -/
def execReplyStart (s : State) : Host.Outcome State Fault Refusal := .next (replyStart s)
/-- REPLY_DROP (R189). -/
def execReplyDrop (s : State) : Host.Outcome State Fault Refusal := .next (replyDrop s)
/-- REPLY_COLLISION (R190). -/
def execReplyCollision (s : State) : Host.Outcome State Fault Refusal := .next (replyCollision s)
/-- REPLY_END (R190). -/
def execReplyEnd (s : State) : Host.Outcome State Fault Refusal := .next (replyEnd s)

end Sys2Proof.Machine
end

