-- ==== Sys2Proof/Machine/Clock.lean ====
section
/-! DEFINITION. What the part does of itself while no command waits (R172): one tick of the oscillator raises its
timers, and at a timer's limit, or when the arbiters allow it, the event that the spec ties to it comes about. The
events that only the outside brings (the beginning of a character, syncs, headset words, the store's answers, the end of a reply, the reset
pin) are never due. -/

namespace Sys2Proof.Machine

/-- A tick in the Timing Monitor: the sync tick counter stands still in FREE_RUN (R173, R174). -/
def Timing.tick (t : Timing) : Timing :=
  { t with frameTimer := t.frameTimer + 1, syncTicks := if t.state = .freeRun then t.syncTicks else t.syncTicks + 1 }

/-- A tick of the store operation in flight: the run time counts only while the erase runs (R143, R144). -/
def Operation.tick (running : Bool) (o : Operation) : Operation :=
  { o with clock := o.clock + 1, runTime := if running then o.runTime + 1 else o.runTime }

/-- A tick in the Store Link Unit (R141, R143 to R145, R147, R151). -/
def Store.tick (u : Store) : Store :=
  { u with
    op := u.op.map (Operation.tick (u.activity == .eraseRunning))
    read := u.read.map (fun r => { r with clock := r.clock + 1 })
    fetch := u.fetch.map (fun f => { f with clock := f.clock + 1 })
    startup := u.startup.map (fun l => { l with clock := l.clock + 1 }) }

/-- A tick in the Control Link Port: the idle timer runs in LENGTH, BODY and CHECK (Table 11-2), and not while the
part itself sends; nor does the wire then stay high, nor while a character is under way; a reply owed waits (R184,
R189). -/
def Port.tick (q : Port) : Port :=
  { q with
    idle := if q.inFrame && q.sending.isNone then q.idle + 1 else q.idle
    quiet := if q.sending.isNone && q.coming.isNone then min Config.replyGap (q.quiet + 1) else q.quiet
    coming := q.coming.map (fun c => { c with clock := c.clock + 1 })
    owed := q.owed.map (fun o => { o with clock := o.clock + 1 }) }

/-- One tick of the oscillator (R172) (DESIGN CHOICE, log entry 2). -/
def tick (s : State) : State := ((s.modTmn Timing.tick).modStore Store.tick).modPort Port.tick

/-! ### The events that are due -/

/-- The Timing Monitor's event that is due: the grace timer's expiry, a boundary that a sync or a loss has made, the
boundary of internal timing with the block that it ends, and the limit of the sync tick counter (R173 to R178,
R182). -/
def State.dueTiming (s : State) : Option Instr :=
  let t := s.tmn
  if t.graceOver then some .graceTimerExpiry
  else if t.boundary.isSome then some .frameBoundary
  else if t.state ≠ .locked ∧ Config.frameTicks ≤ t.frameTimer then
    if s.blockComplete then some .blockBoundary else some .frameBoundary
  else if t.state = .locked ∧ Config.syncLimit ≤ t.syncTicks then some .clockFail
  else if t.state = .acquiring ∧ Config.syncLimit ≤ t.syncTicks then some .acquisitionTimeout
  else none

/-- The end of the character under way, when its time is over (R184). -/
def Port.dueCharacter (q : Port) : Option Instr :=
  match q.coming with
  | some c => if c.over then some (.goodCharacter c.ch (.ended c.low)) else none
  | none => none

/-- The limits of the Control Link Port, and the reply that may begin (R186, R189); none begins while the reset pin is held
(R196). -/
def Port.dueLimit (pinHeld : Bool) (q : Port) : Option Instr :=
  if q.inFrame && Config.idleLimit ≤ q.idle then some .receiverIdleTimeout
  else if !pinHeld && q.mayReply then some .replyStart
  else if q.owed.any (fun o => !o.waiting && Config.replyLimit ≤ o.clock) then some .replyDrop
  else none

/-- The Control Link Port's event that is due: a character's end before the limits (R184, R186, R189). -/
def Port.due (pinHeld : Bool) (q : Port) : Option Instr := q.dueCharacter.orElse fun _ => q.dueLimit pinHeld

/-- The limit of the start-up load in its phase: 400 ms for the first wait, 5 ms for the wait after the abandon and for
each read (R151) (DESIGN CHOICE, log entry 9). -/
def Startup.limit (l : Startup) : Nat :=
  match l.phase with
  | .waitReady => Config.eraseLimit
  | .abandoned | .reading => Config.busyLimit

/-- The operation stands in a phase whose limit of 5 ms or 400 ms is over (R143 to R145). -/
def Operation.due (o : Operation) : Option Instr :=
  match o.phase with
  | .suspending => if Config.busyLimit ≤ o.clock then some .suspendTimeout else none
  | .erasing => if Config.eraseLimit ≤ o.runTime then some .eraseTimeout else none
  | .programming => if Config.busyLimit ≤ o.clock then some .programTimeout else none
  | .notStarted | .waitReady | .suspended => none

/-- The Store Link Unit's limit that is over (R141, R143 to R145, R147, R151). -/
def Store.overdue (u : Store) : Option Instr :=
  if u.startup.any (fun l => l.limit ≤ l.clock) then some .startupNoStore
  else if u.read.any (fun r => Config.readLimit ≤ r.clock) then some .storeReadAbandon
  else
    match u.op.bind Operation.due with
    | some c => some c
    | none => if u.fetch.any (fun f => Config.busyLimit ≤ f.clock) then some .fetchTimeout else none

/-- What the arbiter of the store link lets happen: a pending read is served ahead of every asking slot, and an erase
is resumed or a step started when neither is left (R140, R142, R144, R147). -/
def State.arbiter (s : State) : Option Instr :=
  let u := s.store
  if u.read.any (fun r => !r.holding) && u.linkFree then some .storeReadServe
  else if u.read.isSome then none
  else if s.nextAsking.isSome then if u.linkFree then some .fetchGrant else none
  else if u.activity = .eraseSuspended ∧ s.phase = some .suspended then some .eraseResume
  else if u.activity = .idle ∧ s.phase = some .notStarted then some .operationStepStart
  else none

/-- The event that is due, if any: timing, the Control Link Port's limits, the store's limits, then the arbiter
(DESIGN CHOICE, log entry 3). -/
def due (s : State) : Option Instr :=
  (s.dueTiming.orElse fun _ => s.port.due s.resetHeld).orElse fun _ => s.store.overdue.orElse fun _ => s.arbiter

end Sys2Proof.Machine
end

