-- ==== Sys2Proof/Machine/Dispatch.lean ====
section
/-! DEFINITION. The dispatch of the commands: one arm for each row of spec/opcode_table.json, in the table's order,
each one call of the row's own meaning. -/

namespace Sys2Proof.Machine

def exec (i : Instr) (s : State) : Host.Outcome State Fault Refusal :=
  match i with
  | .deviceReset straps => Sys2Proof.Machine.execDeviceReset straps s
  | .startupStoreReady => Sys2Proof.Machine.execStartupStoreReady s
  | .startupNoStore => Sys2Proof.Machine.execStartupNoStore s
  | .startupLoadEnd dir => Sys2Proof.Machine.execStartupLoadEnd dir s
  | .frameBoundary => Sys2Proof.Machine.execFrameBoundary s
  | .blockBoundary => Sys2Proof.Machine.execBlockBoundary s
  | .graceTimerExpiry => Sys2Proof.Machine.execGraceTimerExpiry s
  | .lineSync rx => Sys2Proof.Machine.execLineSync rx s
  | .acquisitionTimeout => Sys2Proof.Machine.execAcquisitionTimeout s
  | .clockFail => Sys2Proof.Machine.execClockFail s
  | .headsetWordArrival p word => Sys2Proof.Machine.execHeadsetWordArrival p word s
  | .fetchGrant => Sys2Proof.Machine.execFetchGrant s
  | .fetchArrival bytes => Sys2Proof.Machine.execFetchArrival bytes s
  | .fetchTimeout => Sys2Proof.Machine.execFetchTimeout s
  | .operationStepStart => Sys2Proof.Machine.execOperationStepStart s
  | .eraseDone => Sys2Proof.Machine.execEraseDone s
  | .eraseTimeout => Sys2Proof.Machine.execEraseTimeout s
  | .suspendTimeout => Sys2Proof.Machine.execSuspendTimeout s
  | .eraseResume => Sys2Proof.Machine.execEraseResume s
  | .programDone => Sys2Proof.Machine.execProgramDone s
  | .programTimeout => Sys2Proof.Machine.execProgramTimeout s
  | .storeReadServe => Sys2Proof.Machine.execStoreReadServe s
  | .storeReadComplete bytes => Sys2Proof.Machine.execStoreReadComplete bytes s
  | .storeReadAbandon => Sys2Proof.Machine.execStoreReadAbandon s
  | .receiverIdleTimeout => Sys2Proof.Machine.execReceiverIdleTimeout s
  | .frameAbandoned why => Sys2Proof.Machine.execFrameAbandoned why s
  | .linkBreak => Sys2Proof.Machine.execLinkBreak s
  | .unknownCommand st body => Sys2Proof.Machine.execUnknownCommand st body s
  | .replyStart => Sys2Proof.Machine.execReplyStart s
  | .replyDrop => Sys2Proof.Machine.execReplyDrop s
  | .replyCollision => Sys2Proof.Machine.execReplyCollision s
  | .connect st params => Sys2Proof.Machine.execConnect st params s
  | .hold st params => Sys2Proof.Machine.execHold st params s
  | .resume st params => Sys2Proof.Machine.execResume st params s
  | .release st params => Sys2Proof.Machine.execRelease st params s
  | .mute st params => Sys2Proof.Machine.execMute st params s
  | .setCallGains st params => Sys2Proof.Machine.execSetCallGains st params s
  | .setSidetone st params => Sys2Proof.Machine.execSetSidetone st params s
  | .monitor st params => Sys2Proof.Machine.execMonitor st params s
  | .unmonitor st params => Sys2Proof.Machine.execUnmonitor st params s
  | .whisperPrompt st params => Sys2Proof.Machine.execWhisperPrompt st params s
  | .clearWhispers st params => Sys2Proof.Machine.execClearWhispers st params s
  | .setEc st params => Sys2Proof.Machine.execSetEc st params s
  | .resetEc st params => Sys2Proof.Machine.execResetEc st params s
  | .setLevels st params => Sys2Proof.Machine.execSetLevels st params s
  | .setNeighbours st params => Sys2Proof.Machine.execSetNeighbours st params s
  | .clipLoad st params => Sys2Proof.Machine.execClipLoad st params s
  | .clipDelete st params => Sys2Proof.Machine.execClipDelete st params s
  | .setProgramme st params => Sys2Proof.Machine.execSetProgramme st params s
  | .callerPrompt st params => Sys2Proof.Machine.execCallerPrompt st params s
  | .stopPrompt st params => Sys2Proof.Machine.execStopPrompt st params s
  | .storeErase st params => Sys2Proof.Machine.execStoreErase st params s
  | .storeWrite st params => Sys2Proof.Machine.execStoreWrite st params s
  | .storeRead st params => Sys2Proof.Machine.execStoreRead st params s
  | .saveDirectory st params => Sys2Proof.Machine.execSaveDirectory st params s
  | .setGrace st params => Sys2Proof.Machine.execSetGrace st params s
  | .forceClockFail st params => Sys2Proof.Machine.execForceClockFail st params s
  | .ackClockFail st params => Sys2Proof.Machine.execAckClockFail st params s
  | .readPosition st params => Sys2Proof.Machine.execReadPosition st params s
  | .readStream st params => Sys2Proof.Machine.execReadStream st params s
  | .readClip st params => Sys2Proof.Machine.execReadClip st params s
  | .readTiming st params => Sys2Proof.Machine.execReadTiming st params s
  | .readPool st params => Sys2Proof.Machine.execReadPool st params s
  | .fetchNotices st params => Sys2Proof.Machine.execFetchNotices st params s
  | .goodCharacter ch w => Sys2Proof.Machine.execGoodCharacter ch w s
  | .replyEnd => Sys2Proof.Machine.execReplyEnd s
  | .resetPinHeld => Sys2Proof.Machine.execResetPinHeld s
  | .stepStoreReady => Sys2Proof.Machine.execStepStoreReady s

end Sys2Proof.Machine
end

