-- ==== Sys2Proof/Machine/Step.lean ====
section
/-! DEFINITION. One step of the part: the command at the front of the queue, or, on an empty queue, what the part
does of itself (the event that is due, else one tick of the oscillator). -/

namespace Sys2Proof.Machine

/-- One step (DESIGN CHOICE, log entries 2 and 5). -/
def step (s : State) : Host.Outcome State Fault Refusal :=
  match s.pending with
  | c :: rest => exec c { s with pending := rest }
  | [] =>
    match due s with
    | some c => exec c s
    | none => .next (tick s)

/-- The state with the command that the word spells at the front of its queue; unchanged where the word spells none
(no row of the table has bits) (DESIGN CHOICE, log entry 5). -/
def State.withFetchWord (s : State) (nbits w : Nat) : State :=
  match decodeTableWord nbits w with
  | some c => { s with pending := c :: s.pending }
  | none => s

end Sys2Proof.Machine
end

