-- ==== Sys2Proof/Safety.lean ====
section
/-! DEFINITION. What counts as a sound state of the part: for each block the law that its chapter gives for every
moment, as a predicate of the state. The statements say that State.reset has each law and that every step keeps it. A
law says nothing of numbers that name no entry of its table. -/

namespace Sys2Proof.Machine

/-- The effective mute is commanded mute OR button mute, and the mute ramp lies from 0 to 40 (R1, R18, R19). -/
def MuteLaw (s : State) : Prop :=
  ∀ p, p < 16 →
    (s.posAt p).effMute = ((s.posAt p).cmdMute || (s.posAt p).btnMute) ∧ (s.posAt p).ramp ≤ 40

/-- The trunk binding is present exactly while the call state is CONNECTED or HELD, the hold programme exactly while it
is HELD, and both lie in their ranges (R1, Table 1-1). -/
def RecordLaw (s : State) : Prop :=
  ∀ p, p < 16 →
    ((s.posAt p).binding.isSome ↔ (s.posAt p).call ≠ .free) ∧
    ((s.posAt p).hold.isSome ↔ (s.posAt p).call = .held) ∧
    (∀ b, (s.posAt p).binding = some b → b.rx < 32 ∧ b.tx < 32) ∧
    (∀ k, (s.posAt p).hold = some k → k < 4)

/-- No two positions are bound to the same send timeslot (R8). -/
def SendLaw (s : State) : Prop :=
  ∀ p, p < 16 → ∀ q, q < 16 → p ≠ q →
    ∀ b c, (s.posAt p).binding = some b → (s.posAt q).binding = some c → b.tx ≠ c.tx

/-- The other form of a relation. -/
def RelationForm.mirror : RelationForm → RelationForm
  | .monitoredBy => .monitoring
  | .monitoring => .monitoredBy

/-- A relation stands in two records that name each other with one mode and one gain; the gain is present in WHISPER
and BARGE; a monitoring supervisor is FREE and a monitored agent is not (R1, R23). -/
def RelationLaw (s : State) : Prop :=
  ∀ p, p < 16 → ∀ r, (s.posAt p).relation = some r →
    r.other < 16 ∧ r.other ≠ p ∧
    (s.posAt r.other).relation =
      some { form := r.form.mirror, other := p, mode := r.mode, gain := r.gain } ∧
    (r.form = .monitoring ↔ (s.posAt p).call = .free) ∧
    (r.gain.isSome ↔ r.mode ≠ .listen)

/-- A whisper queue holds 0 to 4 items, and none while its position is FREE (R33). -/
def WhisperLaw (s : State) : Prop :=
  ∀ p, p < 16 → (s.queueAt p).length ≤ 4 ∧ ((s.posAt p).call = .free → s.queueAt p = [])

/-- Slot `i` plays a stream of kind `k` for target `p`. -/
def State.plays (s : State) (i : Nat) (k : StreamKind) (p : Nat) : Prop :=
  (s.slotAt i).state ≠ .idle ∧ (s.slotAt i).kind = some k ∧ (s.slotAt i).target = some p

/-- S0 to S3 are the programmes' slots; a general slot that is not IDLE plays a WHISPER or CALLER stream of one
position; a position has at most one of each; and while the slot wait list holds a position, no general slot is free,
and each position of the list stands there once, with a waiting item and no whisper stream (R117, R129, R130). -/
def SlotLaw (s : State) : Prop :=
  (∀ i, i < 4 → (s.slotAt i).kind = some .programme ∧ (s.slotAt i).target = some i) ∧
  (∀ i, 4 ≤ i → i < 24 → (s.slotAt i).state ≠ .idle →
    ∃ p, p < 16 ∧ (s.plays i .whisper p ∨ s.plays i .caller p)) ∧
  (∀ i, i < 24 → ∀ j, j < 24 → ∀ k p, s.plays i k p → s.plays j k p → i = j) ∧
  s.waitList.Nodup ∧
  (∀ p, p ∈ s.waitList → p < 16 ∧ s.queueAt p ≠ [] ∧ s.streamOf .whisper p = none) ∧
  (s.waitList ≠ [] → s.freeSlot = none)

/-- The listener count of a programme is the number of positions that are HELD on it (R132). -/
def ListenerLaw (s : State) : Prop :=
  ∀ k, k < 4 →
    (s.progAt k).listeners = ((List.range 16).filter (fun p => (s.posAt p).hold == some k)).length

/-- The number of slots that are not IDLE and whose current clip is `c`. -/
def State.playing (s : State) (c : Nat) : Nat :=
  ((List.range 24).filter (fun i => (s.slotAt i).state != .idle && (s.slotAt i).clip == some c)).length

/-- Each use count is the number of streams on the clip (R116); an EMPTY entry describes no clip, a RETIRING one is in
use; an entry's fields are those that CLIP_LOAD admits (R113, R114); and a bound clip is an ACTIVE MUSIC clip (R132). -/
def CatalogueLaw (s : State) : Prop :=
  (∀ c, c < 128 →
    (s.clipAt c).use = s.playing c ∧
    ((s.clipAt c).state = .empty ↔ (s.clipAt c).body = none) ∧
    ((s.clipAt c).state = .empty → (s.clipAt c).use = 0) ∧
    ((s.clipAt c).state = .retiring → 0 < (s.clipAt c).use) ∧
    (∀ b, (s.clipAt c).body = some b →
      clipFieldsFit b.cls b.start b.length (b.loop.getD 0) = true ∧ (b.loop.isSome ↔ b.cls = .music))) ∧
  (∀ k, k < 4 → ∀ c, (s.progAt k).binds c = true →
    c < 128 ∧ (s.clipAt c).state = .active ∧ (s.clipAt c).body.map (·.cls) = some .music)

/-- The fenced entries are exactly those that overlap the store operation in flight, and a fenced entry is neither in
use nor bound (R146, R148); the start-up load lasts while the part is STARTING, and until its end no operation is in flight
and every entry is EMPTY (R113, R152, R192, R197). -/
def FenceLaw (s : State) : Prop :=
  (∀ c, c < 128 →
    (s.clipAt c).fenced =
      (match s.store.op with
       | some o => (s.clipAt c).overlaps o.start o.size
       | none => false) ∧
    ((s.clipAt c).fenced = true → (s.clipAt c).use = 0 ∧ s.bound c = false)) ∧
  (s.store.startup.isSome ↔ s.mode = .starting) ∧
  (s.mode = .starting → s.store.op = none ∧ ∀ c, c < 128 → (s.clipAt c).state = .empty)

/-- A segment that `p` owns stands in p's list exactly once, a free segment stands in no list and holds zeros (R80). -/
def PoolLaw (s : State) : Prop :=
  (∀ p, p < 16 → (s.segsOf p).Nodup ∧ ∀ g, g ∈ s.segsOf p → g < 64) ∧
  (∀ g, g < 64 →
    (∀ p, (s.segAt g).owner = some p ↔ p < 16 ∧ g ∈ s.segsOf p) ∧
    ((s.segAt g).owner = none → (s.segAt g).coeffs = List.replicate 32 0)) ∧
  (∀ p, p ∈ s.pool.short → p < 16)

/-- The shortfall list holds exactly the positions whose link is UP and whose granted count is below their request, each
once; while it is not empty no segment is free; and a position whose link is not UP holds no segments (R81, R82). -/
def ShortfallLaw (s : State) : Prop :=
  s.pool.short.Nodup ∧
  (s.pool.short ≠ [] → s.freeCount = 0) ∧
  (∀ p, p < 16 →
    (p ∈ s.pool.short ↔ (s.linkAt p).state = .up ∧ s.granted p < (s.ecAt p).request) ∧
    s.granted p ≤ (s.ecAt p).request ∧ (s.ecAt p).request ≤ 8 ∧
    ((s.linkAt p).state ≠ .up → s.segsOf p = []))

/-- A value that fits in 16 bits (section 0.5.2). -/
def Fits16 (v : Int) : Prop := -32768 ≤ v ∧ v ≤ 32767

/-- A canceller holds 256 reference samples, and its other fields lie in the ranges of Table 4-1; every segment holds 32
coefficients of 32 bits (R58, R59, R64, R67, R70, R80). -/
def CancellerLaw (s : State) : Prop :=
  (∀ p, p < 16 →
    (s.ecAt p).history.length = 256 ∧ (∀ x ∈ (s.ecAt p).history, Fits16 x) ∧ Fits16 (s.ecAt p).gone ∧
    (s.ecAt p).hangover ≤ 240 ∧ 1 ≤ (s.ecAt p).step ∧ (s.ecAt p).step ≤ 32 ∧ (s.ecAt p).shift ≤ 4 ∧
    (s.ecAt p).request ≤ 8 ∧ (s.ecAt p).window ≤ 256) ∧
  (∀ g, g < 64 →
    (s.segAt g).coeffs.length = 32 ∧ ∀ a ∈ (s.segAt g).coeffs, -2147483648 ≤ a ∧ a ≤ 2147483647)

/-- While a canceller runs, its power sum is the sum of the squares of the newest values of the history, as many as the
filter was long at the last arrival: with the history of this frame after the arrival, and with that of the frame before
until then (R63, R89). -/
def PowerLaw (s : State) : Prop :=
  ∀ p, p < 16 → (s.ecAt p).window ≠ 0 →
    (s.ecAt p).power =
      powerOf ((if p < s.words then (s.ecAt p).history
        else (s.ecAt p).history.drop 1 ++ [(s.ecAt p).gone]).take (s.ecAt p).window)

/-- A link record's fields lie in the ranges of Table 9-3: a good run only while PROBING, and a bad run, a held sample, a
pressed button and a change count only while UP (R157 to R163). -/
def LinkLaw (s : State) : Prop :=
  ∀ p, p < 16 →
    (s.linkAt p).goodRun ≤ 63 ∧ (s.linkAt p).badRun ≤ 7 ∧ Fits16 (s.linkAt p).held ∧ (s.linkAt p).change ≤ 159 ∧
    ((s.linkAt p).state = .probing ↔ 0 < (s.linkAt p).goodRun) ∧
    ((s.linkAt p).state ≠ .up →
      (s.linkAt p).badRun = 0 ∧ (s.linkAt p).held = 0 ∧ (s.linkAt p).stable = false ∧ (s.linkAt p).change = 0)

/-- The arrivals of `p` in the block in progress: one in each frame of the block that has ended, and one in the frame in
progress once its word has come (R154, R182). -/
def State.arrivals (s : State) (p : Nat) : Nat := if p < s.words then s.tmn.frames else s.tmn.frames - 1

/-- The levels and the block totals lie in their ranges (R54, R96, R97, Table 6-1): a level is 0 to 287, a block energy at
most 2^30 for each arrival of the block, the adapting count at most the arrivals, the presence count at most the frames
formed, each frame at most one word from a port, and a block at most 40 frames. -/
def TotalsLaw (s : State) : Prop :=
  s.words ≤ 16 ∧ s.tmn.frames ≤ 40 ∧ (s.tmn.frames = 0 → s.words = 16) ∧
  (∀ p, p < 16 →
    (s.levAt p).level ≤ 287 ∧ (s.levAt p).energy ≤ s.arrivals p * 2 ^ 30 ∧ (s.levAt p).adapting ≤ s.arrivals p ∧
    (s.mixAt p).presence ≤ s.tmn.frames)

/-- The Level and Bleed Unit's fields and parameters lie in the ranges of Tables 6-1 and 6-2, the voice flag is raw
voice or a running hangover, and a neighbour list is as SET_NEIGHBOURS admits it (R99, R100, R102, R104, R106). -/
def LevelLaw (s : State) : Prop :=
  (s.params.voice ≤ 96 ∧ s.params.bleed ≤ 96 ∧ s.params.attenMost ≤ 96 ∧ 1 ≤ s.params.interval ∧
    s.params.interval ≤ 64 ∧ s.params.guard ≤ 96 ∧ s.params.leak ≤ 255) ∧
  (∀ p, p < 16 →
    (s.levAt p).floor ≤ 287 ∧ (s.levAt p).rise ≤ 63 ∧ (s.levAt p).hang ≤ 10 ∧
    (s.levAt p).voice = ((s.levAt p).raw || decide (0 < (s.levAt p).hang)) ∧
    (s.levAt p).atten ≤ s.params.attenMost ∧ (s.levAt p).guard ≤ 48 ∧ (s.levAt p).fall ≤ 39 ∧
    (s.levAt p).neighbours.length ≤ 4 ∧ (s.levAt p).neighbours.Nodup ∧
    (∀ q, q ∈ (s.levAt p).neighbours → q < 16 ∧ q ≠ p))

/-- A notice queue holds 0 to 32 records, and its attention line is asserted exactly while it holds one and the reset
pin is not held (R193, R195, R196). -/
def NoticeLaw (s : State) : Prop :=
  ∀ r, (s.noticesOf r).records.length ≤ 32 ∧
    ((s.noticesOf r).attention = true ↔ (s.noticesOf r).records ≠ [] ∧ s.resetHeld = false)

/-- The Timing Monitor's fields stand together: the acquisition count is 0 in FREE_RUN, 1 to 15 in ACQUIRING and 16 in
LOCKED; the sync tick counter stands at 0 in FREE_RUN; the grace timer runs only while the flag is set and the state is
not LOCKED; a frame is at most 2048 ticks long on internal timing, and in LOCKED at most 1023 longer than the time since the
last accepted sync; and the counts lie in the ranges of Table 10-2 (R173, R174, R178, R182). -/
def TimingLaw (s : State) : Prop :=
  (s.tmn.state = .freeRun → s.tmn.count = 0 ∧ s.tmn.syncTicks = 0) ∧
  (s.tmn.state = .acquiring → 1 ≤ s.tmn.count ∧ s.tmn.count ≤ 15) ∧
  (s.tmn.state = .locked → s.tmn.count = 16) ∧
  (s.tmn.running = true → s.tmn.failFlag = true ∧ s.tmn.state ≠ .locked) ∧
  s.tmn.grace ≤ 255 ∧ s.tmn.elapsed ≤ 5100 ∧ s.tmn.blockCount ≤ 65535 ∧ s.tmn.frames ≤ 40 ∧
  s.tmn.syncTicks ≤ 2112 ∧ s.tmn.frameTimer ≤ 3135 ∧ (s.tmn.state ≠ .locked → s.tmn.frameTimer ≤ 2048) ∧
  (s.tmn.state = .locked → s.tmn.frameTimer ≤ s.tmn.syncTicks + 1023)

/-- A pending STORE_READ holds the store link. -/
def Store.readHolds (u : Store) : Bool := u.read.any (·.holding)

/-- The link activity and what holds the link stand together: a fetch or a read holds it exactly while the activity says
so, an erase runs or is paused, a page is programmed, and a started step waits, only in the activities that Table 8-2
gives them (R139, R142 to R145). -/
def StoreLinkLaw (s : State) : Prop :=
  match s.store.activity with
  | .idle =>
    s.store.fetch = none ∧ s.store.readHolds = false ∧
      (s.phase = none ∨ s.phase = some .notStarted ∨ s.phase = some .waitReady)
  | .fetch =>
    s.store.fetch.isSome ∧ s.store.readHolds = false ∧
      (s.phase = none ∨ s.phase = some .notStarted ∨ s.phase = some .suspending ∨ s.phase = some .suspended)
  | .read =>
    s.store.fetch = none ∧ s.store.readHolds = true ∧
      (s.phase = none ∨ s.phase = some .notStarted ∨ s.phase = some .suspending ∨ s.phase = some .suspended)
  | .program => s.store.fetch = none ∧ s.store.readHolds = false ∧ s.phase = some .programming
  | .eraseRunning => s.store.fetch = none ∧ s.store.readHolds = false ∧ s.phase = some .erasing
  | .eraseSuspended =>
    s.store.fetch = none ∧ s.store.readHolds = false ∧ (s.phase = some .suspending ∨ s.phase = some .suspended)

/-- A fetch whose stream still stands reads at the slot's next fetch address, up to 64 of the samples that remain of the
pass, for a slot that plays and has room for them; and no buffer holds more than 256 samples (R117, R119). -/
def FetchLaw (s : State) : Prop :=
  (∀ f, s.store.fetch = some f → f.live = true →
    f.slot < 24 ∧ (s.slotAt f.slot).state ≠ .idle ∧ f.addr = (s.slotAt f.slot).addr ∧
    f.count = min 64 (s.slotAt f.slot).left ∧ 0 < (s.slotAt f.slot).left ∧ (s.slotAt f.slot).buffer.length ≤ 192) ∧
  (∀ i, i < 24 → (s.slotAt i).buffer.length ≤ 256)

/-- Every law of this file at once. -/
def Sound (s : State) : Prop :=
  MuteLaw s ∧ RecordLaw s ∧ SendLaw s ∧ RelationLaw s ∧ WhisperLaw s ∧ SlotLaw s ∧ ListenerLaw s ∧ CatalogueLaw s ∧
  FenceLaw s ∧ PoolLaw s ∧ ShortfallLaw s ∧ CancellerLaw s ∧ PowerLaw s ∧ LinkLaw s ∧ LevelLaw s ∧ TotalsLaw s ∧
  NoticeLaw s ∧ TimingLaw s ∧ StoreLinkLaw s ∧ FetchLaw s

/-- Every step from a state with the law `inv`, and with the law `pre` where `inv` alone is not enough, keeps `inv`. -/
def KeptByStep (pre inv : State → Prop) : Prop :=
  ∀ s t : State, pre s → inv s → step s = .next t → inv t

/-! ### What the statements say of commands -/

/-- A frame of station `st` is from role `r`, and the part takes it: the station has that role, and the part is READY
(R188, Table 11-3). -/
def State.heeds (s : State) (st : Station) (r : Role) : Prop := stationRole st = some r ∧ s.mode = .ready

/-- The outcome of several commands, one after the other, up to the first that does not give a next state. -/
def execAll : List Instr → State → Host.Outcome State Fault Refusal
  | [], s => .next s
  | c :: rest, s =>
    match exec c s with
    | .next t => execAll rest t
    | .fault f => .fault f
    | .refused r => .refused r

/-- A row of Tables 11-5 and 12-1: the code, the roles that may send the command, whether it is taken in STARTING, and
the body length it needs: a fixed one (the code byte included), or one set by a count in the body. -/
structure CommandRule where
  code : Nat
  roles : List Role
  starting : Bool
  fits : List Byte → Bool

/-- A body after the code of exactly `n` bytes. -/
def bodyOf (n : Nat) (ps : List Byte) : Bool := ps.length == n

/-- A body after the code with a count at offset `i`, and then as many bytes as it says. -/
def countedBody (i : Nat) (ps : List Byte) : Bool := decide (i < ps.length) && ps.length == i + 1 + field1 ps i

/-- Table 11-5 with the body lengths of Table 12-1, in their order. -/
def commandRules : List CommandRule :=
  [⟨0x10, [.call], false, bodyOf 3⟩, ⟨0x11, [.call], false, bodyOf 2⟩, ⟨0x12, [.call], false, bodyOf 1⟩,
   ⟨0x13, [.call], false, bodyOf 1⟩, ⟨0x14, [.call], false, bodyOf 2⟩, ⟨0x15, [.call], false, bodyOf 5⟩,
   ⟨0x16, [.maint], false, bodyOf 3⟩, ⟨0x20, [.floor], false, bodyOf 5⟩, ⟨0x21, [.floor], false, bodyOf 1⟩,
   ⟨0x22, [.floor], false, bodyOf 5⟩, ⟨0x23, [.floor], false, bodyOf 1⟩, ⟨0x30, [.maint], false, bodyOf 5⟩,
   ⟨0x31, [.maint], false, bodyOf 1⟩, ⟨0x32, [.maint], false, bodyOf 6⟩, ⟨0x33, [.maint], false, countedBody 1⟩,
   ⟨0x40, [.maint], false, bodyOf 11⟩, ⟨0x41, [.maint], false, bodyOf 1⟩, ⟨0x42, [.maint], false, bodyOf 2⟩,
   ⟨0x43, [.call], false, bodyOf 6⟩, ⟨0x44, [.call], false, bodyOf 1⟩, ⟨0x50, [.maint], false, bodyOf 2⟩,
   ⟨0x51, [.maint], false, countedBody 3⟩, ⟨0x52, [.maint], false, bodyOf 4⟩, ⟨0x53, [.maint], false, bodyOf 0⟩,
   ⟨0x60, [.maint], false, bodyOf 2⟩, ⟨0x61, [.maint], false, bodyOf 1⟩,
   ⟨0x62, [.call, .maint], true, bodyOf 0⟩, ⟨0x70, [.call, .floor, .maint], true, bodyOf 1⟩,
   ⟨0x71, [.call, .floor, .maint], true, bodyOf 1⟩, ⟨0x72, [.call, .floor, .maint], true, bodyOf 1⟩,
   ⟨0x73, [.call, .floor, .maint], true, bodyOf 0⟩, ⟨0x74, [.call, .floor, .maint], true, bodyOf 0⟩,
   ⟨0x75, [.call, .floor, .maint], true, bodyOf 1⟩]

/-- The frame is refused, or answered without any effect, with the bare status: its reply is owed, and nothing else
changes but the receiver, a reply still owed and a STORE_READ not yet answered (R189). -/
def State.refuses (s : State) (st : Station) (code : Byte) (status : Status) : Host.Outcome State Fault Refusal :=
  .next (s.accepted.owe st code (.bare status))

/-- The characters of a command frame (R184, R185): header, length, body, check byte. -/
def frameCharacters (address : BitVec 5) (st : Station) (body : List Byte) : List Instr :=
  let header := toByte (8 * address.toNat + stationNumber st)
  let length := toByte body.length
  (character true header :: (length :: body ++ [checkByte (header :: length :: body)]).map (character false)).map
    (fun ch => .goodCharacter ch (.ended 0))

/-- The frame that begins in `s` goes from its formed samples in `u`, through the work of the slots S0 to S23 in this order,
to `t`: up to `u` the mute ramps, the samples, what goes out and the notices of the ramps have changed, and at its end the
frame has begun, with no inbound word of it yet (R19, R122, R154, R173). -/
def FrameRuns (s u t : State) : Prop :=
  u = { s with pos := u.pos, link := u.link, ec := u.ec, mix := u.mix, hwy := u.hwy, callQ := u.callQ } ∧
  t = { (List.range 24).foldl (fun v i => slotFrame i v) u with
        tmn := { s.tmn with frameTimer := 0, frames := s.tmn.frames + 1, boundary := none }, words := 0 }

/-- The value of the field of `n` bytes at offset `o` of a record, most significant byte first (R198). -/
def fieldAt (d : List Byte) (o n : Nat) : Nat := ((d.drop o).take n).foldl (fun v b => 256 * v + b.toNat) 0

/-- A field of a record: its offset, its bytes, and its value. -/
structure Field where
  offset : Nat
  bytes : Nat
  value : Nat

/-- The value of a field that may be absent: every bit 1 (R198). -/
def absentOr (bytes : Nat) (v : Option Nat) : Nat := v.getD (256 ^ bytes - 1)

/-- A record of `n` bytes that holds the given fields, each as wide as it says. -/
def HoldsFields (d : List Byte) (n : Nat) (fs : List Field) : Prop :=
  d.length = n ∧ ∀ f ∈ fs, fieldAt d f.offset f.bytes = f.value % 256 ^ f.bytes

/-- Fields of one byte each, from an offset on. -/
def bytesFrom (o : Nat) (vs : List Nat) : List Field := vs.mapIdx (fun j v => ⟨o + j, 1, v⟩)

/-- The same state but for whisper-class sound: what WHISPER streams yield and their gains, the live whisper gains, the
whisper guards, and the microphones of supervisors in any mode but BARGE (R45, R52). -/
def WhisperAlike (s u : State) : Prop :=
  u.tmn = s.tmn ∧ u.resetHeld = s.resetHeld ∧ u.words = s.words ∧
  (∀ p, p < 16 →
    { u.posAt p with relation := none } = { s.posAt p with relation := none } ∧
    (u.posAt p).relation.map (fun r => { r with gain := none }) =
      (s.posAt p).relation.map (fun r => { r with gain := none }) ∧
    ((∀ r, (s.posAt p).relation = some r → r.form = .monitoring → r.mode = .barge) →
      (u.mixAt p).processed = (s.mixAt p).processed)) ∧
  (∀ k, k < 4 → u.progAt k = s.progAt k) ∧
  (∀ i, i < 24 →
    (u.slotAt i).state = (s.slotAt i).state ∧ (u.slotAt i).kind = (s.slotAt i).kind ∧
    (u.slotAt i).target = (s.slotAt i).target ∧
    ((s.slotAt i).kind ≠ some .whisper → u.slotAt i = s.slotAt i))

end Sys2Proof.Machine
end

