-- ==== Sys2Proof/Certificates/Slice0/Obligations.lean ====
section
/-! DEFINITION. The statements about the model, for the provers. Each says in its docstring which rules of spec/ it
formalises. Frames: an equation `exec c s = .next t` with `t` a named change of `s` says that every other field of
State stands; where a statement gives readings of `t` instead, it names the fields that stand. `s.accepted` is `s`
with the receiver in SLEEP, no reply owed and an unanswered STORE_READ withdrawn, and `owe` sets the reply that is
owed (EveryAcceptedFrameOwesItsReply). -/

open Sys2Proof Sys2Proof.Machine

/-! ### The queue, the timers, device reset -/

/-- A step takes the command at the front of the queue and runs it on the part with the queue's rest. -/
def Obligations.StepRunsFrontCommand : Prop :=
  ∀ (c : Instr) (s : State), step { s with pending := c :: s.pending } = exec c s

/-- With no command waiting, a step is the event that a timer's limit or the store link's arbiter brings about, and one
tick of the oscillator when there is none. That an empty queue stands for a tick is the model's choice (log entry 2), as is
the order among events that are due at one tick (log entry 3), the one limit for each wait and read of the start-up load
(log entry 9), the 590 ticks of an idle wire (log entry 10), the boundary marked for a FRAME_BOUNDARY (log entry 12), the
wire's high time before a reply in whole ticks (log entry 25), and the character under way, which ends by itself (log entry
46). The character's 12 bits and the 24 bit times of a break are those of R184; the limits are those of R141, R143 to R145, R147, R151,
R173, R174, R176, R178, R186 and R189; the arbiter is that of R140, R142, R144 and R147. -/
def Obligations.EmptyQueueBringsTheTimersEvents : Prop :=
  ∀ s : State, s.pending = [] →
    let q := s.port
    let u := s.store
    let asks (i : Nat) := ((s.slotAt i).state = .priming ∨ (s.slotAt i).state = .playing ∨
      (s.slotAt i).state = .stopping) ∧ (s.slotAt i).buffer.length ≤ 192 ∧ 0 < (s.slotAt i).left
    let free := (u.activity = .idle ∨ u.activity = .eraseRunning ∨ u.activity = .eraseSuspended) ∧
      s.phase ≠ some .waitReady
    let ended (c : Coming) := ((12 + min c.low (24 - lowAfter c.ch)) * 16384 + 999) / 1000 ≤ c.clock
    (due s = none → step s = .next (tick s)) ∧
    tick s =
      { s with
        tmn := { s.tmn with
          frameTimer := s.tmn.frameTimer + 1
          syncTicks := if s.tmn.state = .freeRun then s.tmn.syncTicks else s.tmn.syncTicks + 1 }
        store := { u with
          op := u.op.map (fun o =>
            { o with clock := o.clock + 1, runTime := if u.activity = .eraseRunning then o.runTime + 1 else o.runTime })
          read := u.read.map (fun r => { r with clock := r.clock + 1 })
          fetch := u.fetch.map (fun f => { f with clock := f.clock + 1 })
          startup := u.startup.map (fun l => { l with clock := l.clock + 1 }) }
        port := { q with
          idle := if q.state ≠ .sleep ∧ q.sending = none then q.idle + 1 else q.idle
          quiet := if q.sending = none ∧ q.coming = none then min 197 (q.quiet + 1) else q.quiet
          coming := q.coming.map (fun c => { c with clock := c.clock + 1 })
          owed := q.owed.map (fun o => { o with clock := o.clock + 1 }) } } ∧
    (s.tmn.graceOver = true → step s = exec .graceTimerExpiry s) ∧
    (s.tmn.graceOver = false → s.tmn.boundary ≠ none → step s = exec .frameBoundary s) ∧
    (s.tmn.graceOver = false → s.tmn.boundary = none →
      (s.tmn.state ≠ .locked → 2048 ≤ s.tmn.frameTimer →
        step s = exec (if 40 ≤ s.tmn.frames then .blockBoundary else .frameBoundary) s) ∧
      (s.tmn.state = .locked → 2112 ≤ s.tmn.syncTicks → step s = exec .clockFail s) ∧
      (s.tmn.state = .acquiring → s.tmn.frameTimer < 2048 → 2112 ≤ s.tmn.syncTicks →
        step s = exec .acquisitionTimeout s)) ∧
    (s.dueTiming = none →
      (∀ c, q.coming = some c → ended c → step s = exec (.goodCharacter c.ch (.ended c.low)) s) ∧
      ((∀ c, q.coming = some c → ¬ ended c) →
        (q.state ≠ .sleep → 590 ≤ q.idle → step s = exec .receiverIdleTimeout s) ∧
        (∀ o, q.state = .sleep ∨ q.idle < 590 → q.owed = some o → o.waiting = false →
          let begins := 197 ≤ o.clock ∧ 197 ≤ q.quiet ∧ q.coming = none ∧ q.sending = none ∧
            s.resetHeld = false
          (begins → step s = exec .replyStart s) ∧ (¬ begins → 32768 ≤ o.clock → step s = exec .replyDrop s))) ∧
      (q.due s.resetHeld = none →
        (∀ l, u.startup = some l →
          (if l.phase = .waitReady then 6553600 else 81920) ≤ l.clock → step s = exec .startupNoStore s) ∧
        (u.startup = none →
          (∀ r, u.read = some r → 16384 ≤ r.clock → step s = exec .storeReadAbandon s) ∧
          (u.read = none →
            (∀ o, u.op = some o → o.phase = .erasing → 6553600 ≤ o.runTime → step s = exec .eraseTimeout s) ∧
            (∀ o, u.op = some o → o.phase = .suspending → 81920 ≤ o.clock → step s = exec .suspendTimeout s) ∧
            (∀ o, u.op = some o → o.phase = .programming → 81920 ≤ o.clock → step s = exec .programTimeout s) ∧
            (∀ f, u.op.bind Operation.due = none → u.fetch = some f → 81920 ≤ f.clock →
              step s = exec .fetchTimeout s))) ∧
        (u.overdue = none →
          (∀ r, u.read = some r → r.holding = false → free → step s = exec .storeReadServe s) ∧
          (u.read = none →
            ((∃ i, i < 24 ∧ asks i) → free → step s = exec .fetchGrant s) ∧
            ((∀ i, i < 24 → ¬ asks i) →
              (u.activity = .eraseSuspended → s.phase = some .suspended → step s = exec .eraseResume s) ∧
              (u.activity = .idle → s.phase = some .notStarted → step s = exec .operationStepStart s))))))

/-- DEVICE_RESET gives every block its reset values (R2, R58, R80, R110, R117, R132, R139, R157, R172, R195, R196), and
the held reset pin silences the outputs (R196): nothing is sent, no send timeslot is driven, no attention line is
asserted, and no reply begins while it is held. That the queue of waiting commands stands over a reset is the model's
(log entry 4), and so is that the held pin leaves every other field as it stands, the receiver and a reply still owed among
them (log entry 27). -/
def Obligations.DeviceResetAndHeldPin : Prop :=
  (∀ (straps : BitVec 5) (s : State), ∃ t, exec (.deviceReset straps) s = .next t ∧
    t.pending = s.pending ∧ t.mode = .starting ∧ t.resetHeld = false ∧ t.words = 0 ∧
    (∀ p, p < 16 → t.posAt p =
      { call := .free, binding := none, hold := none, cmdMute := false, btnMute := false, effMute := false,
        ramp := 40, relation := none, rxGain := 8192, txGain := 8192, sidetone := 1031 }) ∧
    (∀ p, p < 16 → (t.linkAt p).state = .down ∧ (t.linkAt p).goodRun = 0 ∧ (t.linkAt p).badRun = 0 ∧
      (t.linkAt p).held = 0 ∧ (t.linkAt p).stable = false ∧ (t.linkAt p).change = 0) ∧
    (∀ p, p < 16 → (t.ecAt p).history = List.replicate 256 0 ∧ (t.ecAt p).power = 0 ∧ (t.ecAt p).hangover = 0 ∧
      (t.ecAt p).state = .off ∧ (t.ecAt p).step = 8 ∧ (t.ecAt p).shift = 1 ∧ (t.ecAt p).freeze = false ∧
      (t.ecAt p).request = 4 ∧ (t.ecAt p).window = 0) ∧
    (∀ g, g < 64 → t.segAt g = { owner := none, coeffs := List.replicate 32 0 }) ∧
    (∀ p, p < 16 → t.segsOf p = []) ∧ t.pool.short = [] ∧ t.freeCount = 64 ∧
    (∀ p, p < 16 → t.levAt p =
      { level := 0, floor := 287, rise := 0, raw := false, hang := 0, voice := false, bleed := false, atten := 48,
        guard := 0, fall := 0, neighbours := [], energy := 0, adapting := 0 }) ∧
    t.params = { voice := 24, bleed := 16, attenMost := 48, interval := 8, guard := 8, leak := 64 } ∧
    (∀ p, p < 16 → (t.mixAt p).x = 0 ∧ (t.mixAt p).e = 0 ∧ (t.mixAt p).t = none ∧ (t.mixAt p).energy = 0 ∧
      (t.mixAt p).presence = 0) ∧
    (∀ c, c < 128 → t.clipAt c = { state := .empty, body := none, use := 0, fenced := false }) ∧
    (∀ i, i < 24 → t.slotAt i =
      { state := .idle, kind := if i < 4 then some .programme else none, target := if i < 4 then some i else none,
        clip := none, addr := 0, left := 0, buffer := [], repeats := none, hears := none,
        gain := if i < 4 then some 8192 else none, ramp := 40, dir := none, begun := false, cause := none,
        underrun := false, out := 0 }) ∧
    (∀ k, k < 4 → t.progAt k = { clip := none, pending := .empty, listeners := 0 }) ∧
    (∀ p, p < 16 → t.queueAt p = []) ∧ t.waitList = [] ∧
    t.store.activity = .idle ∧ t.store.lastServed = 23 ∧ t.store.op = none ∧ t.store.read = none ∧
    t.store.fetch = none ∧ t.store.startup = some { phase := .waitReady, clock := 0 } ∧
    t.tmn.state = .freeRun ∧ t.tmn.syncTicks = 0 ∧ t.tmn.count = 0 ∧ t.tmn.frameTimer = 0 ∧ t.tmn.failFlag = false ∧
    t.tmn.force = false ∧ t.tmn.grace = 50 ∧ t.tmn.running = false ∧ t.tmn.elapsed = 0 ∧ t.tmn.blockCount = 0 ∧
    t.hwy.rx = none ∧ t.hwy.tx = Vector.replicate 32 none ∧ t.hwy.drive = [] ∧
    t.port.address = straps ∧ t.port.state = .sleep ∧ t.port.coming = none ∧ t.port.owed = none ∧
    t.port.sending = none ∧
    (∀ r, t.noticesOf r = { records := [], overflow := false, attention := false })) ∧
  (∀ s : State, ∃ t, exec .resetPinHeld s = .next t ∧
    t = { s with resetHeld := true, port := { s.port with sending := none },
                 hwy := { s.hwy with tx := Vector.replicate 32 none }, callQ := t.callQ, floorQ := t.floorQ,
                 maintQ := t.maintQ } ∧
    (∀ r, t.noticesOf r = { s.noticesOf r with attention := false })) ∧
  (∀ s : State, s.resetHeld = true → exec .replyStart s = .next s)

/-! ### The Control Link (chapter 11) -/

/-- The checks of the Control Link Port in their order (R188): the station, the code, the role, the length, STARTING.
Each refusal owes its reply and does nothing else. -/
def Obligations.FramesAreCheckedInOrder : Prop :=
  ∀ (st : Station) (c : Byte) (ps : List Byte) (s : State),
    (stationRole st = none → exec (frameCommand st (c :: ps)) s = s.refuses st c .role ∧
      exec (.unknownCommand st (c :: ps)) s = s.refuses st c .role) ∧
    (∀ r, stationRole st = some r →
      ((∀ row ∈ commandRules, row.code ≠ c.toNat) →
        exec (frameCommand st (c :: ps)) s = s.refuses st c .unknown ∧
        exec (.unknownCommand st (c :: ps)) s = s.refuses st c .unknown) ∧
      (∀ row ∈ commandRules, row.code = c.toNat →
        (r ∉ row.roles → exec (frameCommand st (c :: ps)) s = s.refuses st c .role) ∧
        (r ∈ row.roles → row.fits ps = false → exec (frameCommand st (c :: ps)) s = s.refuses st c .length) ∧
        (r ∈ row.roles → row.fits ps = true → s.mode = .starting → row.starting = false →
          exec (frameCommand st (c :: ps)) s = s.refuses st c .busy)))

/-- Every frame that is taken gives a next state and owes one reply, to its station, with its code, from that event on;
a reply owed before is gone, the receiver is in SLEEP, an unanswered STORE_READ is withdrawn, and a reply that is being
sent goes on. Only STORE_READ's reply may still wait for its outcome (R185, R189). Beside the rules the model takes: that a
frame which is then refused drops the reply and withdraws the read as well (log entry 21); that the 12 bit times of a high
wire are counted from that event too, its check character having ended (log entries 25 and 46); and that SLEEP holds no
station, length, body or sum (log entry 26). -/
def Obligations.EveryAcceptedFrameOwesItsReply : Prop :=
  ∀ (st : Station) (c : Byte) (ps : List Byte) (s : State),
    ∃ t, exec (frameCommand st (c :: ps)) s = .next t ∧
      ∃ o, t.port = { s.port with state := .sleep, station := none, length := 0, body := [], sum := 0, idle := 0,
                                  quiet := 0, coming := none, owed := some o } ∧
        o.station = st ∧ o.code = c ∧ o.clock = 0 ∧
        (o.waiting = true → c = 0x52) ∧ (o.waiting = false → t.store.read = none)

/-- The characters of a frame for the part, sent one after the other to a part that is not itself sending, run the
command that the frame's body spells, and nothing else (R184, R185, R188): from any state of the receiver. -/
def Obligations.CharactersOfAFrameRunItsCommand : Prop :=
  ∀ (st : Station) (body : List Byte) (s : State), s.port.sending = none → 1 ≤ body.length → body.length ≤ 40 →
    execAll (frameCharacters s.port.address st body) s = exec (frameCommand st body) s

/-- How a character's 12 bits are judged, and when the low wire at its end and after it is a break (R184), and what a character
does in each state of the receiver (R185, R186). That the part passes over every character while it sends is the model's reading of R190, which speaks of its own characters
(log entry 24); the reckoning of the wire's high time, from a character's last bits that are 1, is that of log entry 25; that
SLEEP holds no station, length, body or sum is log entry 26; that the row carries the low bit times after the character, so
that a break is judged in the event of its end, is log entry 41; and that it comes at the character's falling edge or at its
end is log entry 46. -/
def Obligations.ReceiverMovesAtEachGoodCharacter : Prop :=
  (∀ ch : BitVec 12,
    (charGood ch = true ↔
      ((List.range 10).filter (fun i => ch.getLsbD (i + 1))).length % 2 = 0 ∧ ch.getLsbD 11 = true) ∧
    charMarker ch = ch.getLsbD 9 ∧ (∀ i, i < 8 → (charData ch).getLsbD i = ch.getLsbD (i + 1)) ∧
    (∀ n, n ≤ 12 →
      (n ≤ lowAfter ch ↔ ∀ i, i < n → ch.getLsbD (11 - i) = false) ∧
      (n ≤ highAfter ch ↔ ∀ i, i < n → ch.getLsbD (11 - i) = true))) ∧
  (∀ (m : Bool) (d : Byte),
    charGood (character m d) = true ∧ charMarker (character m d) = m ∧ charData (character m d) = d ∧
    (character m d).getLsbD 0 = false) ∧
  ∀ (d : Byte) (ch : BitVec 12) (low : Nat) (s : State),
    let heard (ch : BitVec 12) : Port :=
      { s.port with quiet := if low = 0 then highAfter ch * 16384 / 1000 else 0, coming := none }
    let q := heard (character false d)
    let header := exec (.goodCharacter (character true d) (.ended low)) s
    let data := exec (.goodCharacter (character false d) (.ended low)) s
    (s.port.sending = none → s.port.coming = none →
      exec (.goodCharacter ch (.begins low)) s =
        .next { s with port := { s.port with quiet := 0, coming := some { ch := ch, low := low, clock := 0 } } }) ∧
    (s.port.sending ≠ none ∨ s.port.coming ≠ none → exec (.goodCharacter ch (.begins low)) s = .next s) ∧
    (24 ≤ lowAfter ch + low →
      exec (.goodCharacter ch (.ended low)) s = execAll [.goodCharacter ch (.ended 0), .linkBreak] s) ∧
    (s.port.sending ≠ none → lowAfter ch + low < 24 →
      exec (.goodCharacter ch (.ended low)) s = .next { s with port := { s.port with coming := none } }) ∧
    (s.port.sending = none → low < 24 →
      (charGood ch = false → lowAfter ch + low < 24 →
        exec (.goodCharacter ch (.ended low)) s =
          .next { s with port := if s.port.state = .sleep then heard ch else (heard ch).toSleep }) ∧
      (∀ st, d.toNat = 8 * s.port.address.toNat + stationNumber st →
        header =
          .next { s with port := { heard (character true d) with state := .length, station := some st, length := 0,
                                                                 body := [], sum := d, idle := 0 } }) ∧
      ((∀ st, d.toNat ≠ 8 * s.port.address.toNat + stationNumber st) →
        header = .next { s with port := (heard (character true d)).toSleep }) ∧
      (s.port.state = .sleep → data = .next { s with port := q }) ∧
      (s.port.state = .length → 1 ≤ d.toNat → d.toNat ≤ 40 →
        data = .next { s with port := { q with state := .body, length := d.toNat, sum := q.sum + d, idle := 0 } }) ∧
      (s.port.state = .length → d.toNat = 0 ∨ 40 < d.toNat → data = .next { s with port := q.toSleep }) ∧
      (s.port.state = .body → q.body.length + 1 < q.length →
        data = .next { s with port := { q with body := q.body ++ [d], sum := q.sum + d, idle := 0 } }) ∧
      (s.port.state = .body → q.length = q.body.length + 1 →
        data =
          .next { s with port := { q with state := .check, body := q.body ++ [d], sum := q.sum + d, idle := 0 } }) ∧
      (s.port.state = .check → q.sum + d ≠ 0 → data = .next { s with port := q.toSleep }) ∧
      (∀ st, s.port.state = .check → q.station = some st → q.sum + d = 0 → q.body ≠ [] →
        data = exec (frameCommand st q.body) s))

/-- An abandoned frame is not taken and gets no reply: the receiver alone is cleared, and a reply already owed stands
(R186). FRAME_ABANDONED is the arrival of the character that abandons the frame, and comes about only where that character
does (log entry 6); a new header is examined as in SLEEP. A break (R184) also drops the reply that is owed; that
it cuts off a reply being sent at once is the model's reading of R187 and R190 (log entry 22). How the wire's high time is
reckoned, from the character's last bits that are 1 and from the break, is log entry 25; that SLEEP holds no station, length,
body or sum is log entry 26; and that the character or the break leaves none under way is log entry 46. -/
def Obligations.AbandonedFramesAndBreaksTouchNoBlock : Prop :=
  ∀ s : State,
    let slept (ch : BitVec 12) : Host.Outcome State Fault Refusal :=
      .next { s with port := { s.port.toSleep with quiet := highAfter ch * 16384 / 1000, coming := none } }
    let abandoned (why : AbandonCause) := exec (.frameAbandoned why) s
    (s.port.state ≠ .sleep → exec .receiverIdleTimeout s = .next { s with port := s.port.toSleep }) ∧
    (s.port.state = .sleep → exec .receiverIdleTimeout s = .next s) ∧
    (∀ ch, s.port.state ≠ .sleep → s.port.sending = none → charGood ch = false →
      abandoned (.badCharacter ch) = slept ch) ∧
    (∀ ch, s.port.state = .sleep ∨ charGood ch = true → abandoned (.badCharacter ch) = .next s) ∧
    (∀ h, (s.port.state ≠ .sleep → abandoned (.newHeader h) = exec (.goodCharacter (character true h) (.ended 0)) s) ∧
      (s.port.state = .sleep → abandoned (.newHeader h) = .next s)) ∧
    (∀ n : Byte, s.port.state = .length → s.port.sending = none → n.toNat = 0 ∨ 40 < n.toNat →
      abandoned (.badLength n) = slept (character false n)) ∧
    (∀ n : Byte, s.port.state ≠ .length ∨ (1 ≤ n.toNat ∧ n.toNat ≤ 40) → abandoned (.badLength n) = .next s) ∧
    (∀ c : Byte, s.port.state = .check → s.port.sending = none → s.port.sum + c ≠ 0 →
      abandoned (.failedCheck c) = slept (character false c)) ∧
    (∀ c : Byte, s.port.state ≠ .check ∨ s.port.sum + c = 0 → abandoned (.failedCheck c) = .next s) ∧
    exec .linkBreak s =
      .next { s with port := { s.port with state := .sleep, station := none, length := 0, body := [], sum := 0, idle := 0,
                                           quiet := 0, coming := none, owed := none, sending := none } }

/-- REPLY_START sends the owed reply as a frame with the part's own address and station 0, the body length, the code, the
status byte with the clamped mark in bit 7, the data and a check byte that makes the sum 0, once 12 bit times (197 ticks)
have passed since its event and the wire has been high for as long; before that, while the read's outcome is out, while a
reply is being sent or a character is under way (log entry 46), and with no reply owed it does not begin (R189, section 12.1). REPLY_DROP drops an owed reply,
REPLY_COLLISION and REPLY_END end the one being sent, and no other block changes (R189, R190). How the wire's high time is
reckoned is log entry 25; that the receiver, which a collision sends to SLEEP, then holds no station, length, body or sum is
log entry 26; and that REPLY_DROP, REPLY_COLLISION and REPLY_END with nothing to end change nothing is log entry 6. -/
def Obligations.RepliesAreSentDroppedOrCutOff : Prop :=
  ∀ s : State,
    (∀ o, s.port.owed = some o → o.waiting = false → s.port.sending = none → s.resetHeld = false → 197 ≤ o.clock →
      197 ≤ s.port.quiet → s.port.coming = none →
      ∃ check : Byte,
        exec .replyStart s =
          .next { s with port :=
            { s.port with
              owed := none
              sending := some ([BitVec.ofNat 8 (8 * s.port.address.toNat), BitVec.ofNat 8 (2 + o.data.length), o.code,
                BitVec.ofNat 8 (statusCode o.status + if o.clamped then 128 else 0)] ++ o.data ++ [check]) } } ∧
        (BitVec.ofNat 8 (8 * s.port.address.toNat) + BitVec.ofNat 8 (2 + o.data.length) + o.code +
          BitVec.ofNat 8 (statusCode o.status + if o.clamped then 128 else 0) + o.data.foldl (· + ·) 0 + check : Byte)
          = 0) ∧
    (∀ o, s.port.owed = some o →
      o.waiting = true ∨ s.port.sending ≠ none ∨ o.clock < 197 ∨ s.port.quiet < 197 ∨ s.port.coming ≠ none →
      exec .replyStart s = .next s) ∧
    (s.port.owed = none → exec .replyStart s = .next s ∧ exec .replyDrop s = .next s) ∧
    (∀ o, s.port.owed = some o →
      (o.waiting = false → exec .replyDrop s = .next { s with port := { s.port with owed := none } }) ∧
      (o.waiting = true → exec .replyDrop s = .next s)) ∧
    (s.port.sending ≠ none →
      exec .replyCollision s = .next { s with port := { s.port.toSleep with quiet := 0, sending := none } } ∧
      exec .replyEnd s = .next { s with port := { s.port with quiet := 0, sending := none } }) ∧
    (s.port.sending = none → exec .replyCollision s = .next s ∧ exec .replyEnd s = .next s)

/-! ### Positions and calls (chapter 1) -/

/-- CONNECT on a FREE position whose send timeslot no other position is bound to: the call state and the binding are
set, nothing else of the record changes, and a supervisor-side relation of the position ends first, with MONITOR_ENDED
cause SUPERVISOR_CALL to FLOOR (R5, R6, R7). -/
def Obligations.ConnectSetsUpTheCall : Prop :=
  ∀ (st : Station) (p rx tx : Nat) (s : State), s.heeds st .call → p < 16 → rx < 32 → tx < 32 →
    (s.posAt p).call = .free →
    (∀ q, q < 16 → q ≠ p → ∀ b, (s.posAt q).binding = some b → b.tx ≠ tx) →
    ((∀ r, (s.posAt p).relation = some r → r.form ≠ .monitoring) →
      exec (.connect st [toByte p, toByte rx, toByte tx]) s =
        .next ((s.accepted.modPos p (fun x =>
          { x with call := .connected, binding := some { rx := rx, tx := tx } })).owe st 0x10 { status := .done })) ∧
    (∀ r, (s.posAt p).relation = some r → r.form = .monitoring →
      exec (.connect st [toByte p, toByte rx, toByte tx]) s =
        .next (((((s.accepted.modPos r.other (fun x => { x with relation := none })).modPos p
            (fun x => { x with relation := none })).post .floor .monitorEnded (some r.other) none
              (some .supervisorCall) (some p)).modPos p (fun x =>
          { x with call := .connected, binding := some { rx := rx, tx := tx } })).owe st 0x10 { status := .done }))

/-- The refusals of the call commands: parameters out of range, then the call state, then a send timeslot bound
elsewhere; a refused command changes no state and posts no notice (R4, R6, R10, R11, R12, R16, R22). -/
def Obligations.CallCommandsAreRefusedInOrder : Prop :=
  ∀ (st : Station) (p k rx tx : Nat) (s : State), p < 256 → k < 256 → rx < 256 → tx < 256 →
    (s.heeds st .call →
      (15 < p ∨ 31 < rx ∨ 31 < tx → exec (.connect st [toByte p, toByte rx, toByte tx]) s = s.refuses st 0x10 .range) ∧
      (p < 16 → rx < 32 → tx < 32 → (s.posAt p).call ≠ .free →
        exec (.connect st [toByte p, toByte rx, toByte tx]) s = s.refuses st 0x10 .state) ∧
      (p < 16 → rx < 32 → tx < 32 → (s.posAt p).call = .free →
        ∀ q b, q < 16 → q ≠ p → (s.posAt q).binding = some b → b.tx = tx →
          exec (.connect st [toByte p, toByte rx, toByte tx]) s = s.refuses st 0x10 .inUse) ∧
      (15 < p ∨ 3 < k → exec (.hold st [toByte p, toByte k]) s = s.refuses st 0x11 .range) ∧
      (p < 16 → k < 4 → (s.posAt p).call = .free → exec (.hold st [toByte p, toByte k]) s = s.refuses st 0x11 .state) ∧
      (15 < p → exec (.resume st [toByte p]) s = s.refuses st 0x12 .range) ∧
      (p < 16 → (s.posAt p).call = .free → exec (.resume st [toByte p]) s = s.refuses st 0x12 .state) ∧
      (15 < p → exec (.release st [toByte p]) s = s.refuses st 0x13 .range) ∧
      (p < 16 → (s.posAt p).call = .free → exec (.release st [toByte p]) s = s.refuses st 0x13 .state) ∧
      (15 < p ∨ 1 < k → exec (.mute st [toByte p, toByte k]) s = s.refuses st 0x14 .range) ∧
      (15 < p → ∀ a b c d, exec (.setCallGains st [toByte p, a, b, c, d]) s = s.refuses st 0x15 .range)) ∧
    (s.heeds st .maint →
      15 < p → ∀ a b, exec (.setSidetone st [toByte p, a, b]) s = s.refuses st 0x16 .range)

/-- HOLD and RESUME: the call state, the hold programme and the listener counts (R9, R10, R11). What a listener count
does to the programme's slot is ListenerChangesReachTheSlot. -/
def Obligations.HoldAndResumeMoveTheListener : Prop :=
  ∀ (st : Station) (p k : Nat) (s : State), s.heeds st .call → p < 16 → k < 4 →
    ((s.posAt p).call = .connected →
      exec (.hold st [toByte p, toByte k]) s =
        .next ((listenerUp k (s.accepted.modPos p (fun x => { x with call := .held, hold := some k }))).owe st 0x11
          { status := .done }) ∧
      exec (.resume st [toByte p]) s = .next (s.accepted.owe st 0x12 { status := .done })) ∧
    (∀ j, (s.posAt p).call = .held → (s.posAt p).hold = some j →
      (j = k → exec (.hold st [toByte p, toByte k]) s = .next (s.accepted.owe st 0x11 { status := .done })) ∧
      (j ≠ k → exec (.hold st [toByte p, toByte k]) s =
        .next ((listenerUp k ((listenerDown j s.accepted).modPos p (fun x => { x with hold := some k }))).owe st 0x11
          { status := .done })) ∧
      exec (.resume st [toByte p]) s =
        .next ((listenerDown j (s.accepted.modPos p (fun x => { x with call := .connected, hold := none }))).owe st
          0x12 { status := .done }))

/-- What slot S_k does at each change of programme k's listener count: a rise from 0 with a current clip starts an IDLE
slot, turns or ends the fade of a STOPPING one, or returns it to PRIMING; a fall to 0 stops it; any other change leaves
it (R133, and R118, R121, R125 for what a start, the end of priming and a stop are). The slot of a programme that starts
keeps the sample it yielded last, which the frame in progress has (log entry 17). -/
def Obligations.ListenerChangesReachTheSlot : Prop :=
  ∀ (k : Nat) (s : State), k < 4 →
    let up := s.modProg k (fun g => { g with listeners := g.listeners + 1 })
    let down := s.modProg k (fun g => { g with listeners := g.listeners - 1 })
    let x := s.slotAt k
    (0 < (s.progAt k).listeners ∨ (s.progAt k).clip = none → listenerUp k s = up) ∧
    (∀ c, (s.progAt k).listeners = 0 → (s.progAt k).clip = some c →
      (∀ b, x.state = .idle → (s.clipAt c).body = some b →
        listenerUp k s =
          (up.modClip c (fun e => { e with use := e.use + 1 })).modSlot k (fun y =>
            { state := .priming, kind := some .programme, target := some k, clip := some c, addr := b.start,
              left := b.length, buffer := [], repeats := none, hears := none, gain := some 8192, ramp := 40,
              dir := none, begun := false, cause := none, underrun := false, out := y.out })) ∧
      (x.state = .priming ∨ x.state = .playing ∨ x.state = .ending → listenerUp k s = up) ∧
      (x.state = .stopping → x.begun = true → x.ramp = 40 →
        listenerUp k s = up.modSlot k (fun x => { x with state := .playing, dir := none, cause := none })) ∧
      (x.state = .stopping → x.begun = true → x.ramp ≠ 40 →
        listenerUp k s = up.modSlot k (fun x => { x with dir := some .rising, cause := none })) ∧
      (x.state = .stopping → x.begun = false → x.buffer.length < 128 → x.left ≠ 0 →
        listenerUp k s =
          up.modSlot k (fun x => { x with state := .priming, ramp := 40, dir := none, cause := none })) ∧
      (x.state = .stopping → x.begun = false → 128 ≤ x.buffer.length ∨ x.left = 0 →
        listenerUp k s =
          up.modSlot k (fun x => { x with state := if x.left = 0 then .ending else .playing, ramp := 40, dir := none,
                                          begun := true, cause := none }))) ∧
    (1 < (s.progAt k).listeners → listenerDown k s = down) ∧
    ((s.progAt k).listeners ≤ 1 →
      (x.state = .priming ∨ x.state = .playing ∨ x.state = .ending →
        listenerDown k s =
          down.modSlot k (fun x =>
            { x with state := .stopping, dir := some .falling, cause := some .noListeners })) ∧
      (x.state = .stopping → x.dir = some .rising →
        listenerDown k s = down.modSlot k (fun x => { x with dir := some .falling, cause := some .noListeners })) ∧
      (x.state = .idle ∨ (x.state = .stopping ∧ x.dir ≠ some .rising) → listenerDown k s = down))

/-- RELEASE tears the call down: the record becomes FREE with no binding, hold programme, relation or mute and its ramp
at 40, its gains kept; the programme loses its listener; the whisper queue is flushed and the position's streams are
stopped; FLOOR gets its notices in the order of R13, CALL none; and everything else stands (R12, R13). What a stop makes of
a slot is said first (R125). -/
def Obligations.ReleaseTearsTheCallDown : Prop :=
  (∀ (c : Cause) (x : Slot),
    (x.state = .priming ∨ x.state = .playing ∨ x.state = .ending →
      x.stop c = { x with state := .stopping, dir := some .falling, cause := some c }) ∧
    (x.state = .stopping → x.dir = some .rising →
      x.stop c = { x with dir := some .falling, cause := some .noListeners }) ∧
    (x.state = .idle ∨ (x.state = .stopping ∧ x.dir ≠ some .rising) → x.stop c = x)) ∧
  ∀ (st : Station) (p : Nat) (s : State), s.heeds st .call → p < 16 → (s.posAt p).call ≠ .free → RecordLaw s →
    RelationLaw s →
    let flushed := (s.queueAt p).length +
      (match s.streamOf .whisper p with
       | some i => if (s.slotAt i).state = .stopping then 0 else 1
       | none => 0)
    ∃ t, exec (.release st [toByte p]) s = .next t ∧
      t.posAt p =
        { s.posAt p with call := .free, binding := none, hold := none, cmdMute := false, btnMute := false,
                         effMute := false, ramp := 40, relation := none } ∧
      (∀ q, q < 16 → q ≠ p →
        t.posAt q = if s.supervisorOf p = some q then { s.posAt q with relation := none } else s.posAt q) ∧
      t.queueAt p = [] ∧ (∀ q, q < 16 → q ≠ p → t.queueAt q = s.queueAt q) ∧ t.waitList = s.waitList.erase p ∧
      (∀ i, 4 ≤ i → i < 24 →
        t.slotAt i =
          if s.streamOf .whisper p = some i then (s.slotAt i).stop .flushed
          else if s.streamOf .caller p = some i then (s.slotAt i).stop .released
          else s.slotAt i) ∧
      (∀ k, k < 4 →
        t.progAt k =
          (if (s.posAt p).hold = some k then { s.progAt k with listeners := (s.progAt k).listeners - 1 }
            else s.progAt k) ∧
        t.slotAt k =
          (if (s.posAt p).hold = some k ∧ (s.progAt k).listeners ≤ 1 then (s.slotAt k).stop .noListeners
            else s.slotAt k)) ∧
      (let ended : NoticeQueue :=
        match s.supervisorOf p with
        | some b =>
          s.floorQ.push { kind := .monitorEnded, position := some p, subject := none, cause := some .callEnd,
                          value := some b, stamp := s.tmn.blockCount } s.resetHeld
        | none => s.floorQ
       t.floorQ =
        if 1 ≤ flushed then
          ended.push { kind := .whisperFlushed, position := some p, subject := none, cause := none,
                       value := some flushed, stamp := s.tmn.blockCount } s.resetHeld
        else ended) ∧
      t = { s with pos := t.pos, slot := t.slot, prog := t.prog, queue := t.queue, waitList := t.waitList,
                   floorQ := t.floorQ, store := s.store.dropRead,
                   port := (s.accepted.owe st 0x13 { status := .done }).port }

/-- The grace timer at its limit expires: it stops, every CONNECTED or HELD position is torn down with cause LINE_LOSS in the
order P0 to P15, as R13 has it, and CALL gets one CALL_RELEASED for each: relations end on both records, with
MONITOR_ENDED; whisper queues are flushed, with WHISPER_FLUSHED; streams are stopped; programmes lose their listeners; and
everything else stands (R13, R14, R178). A timer that reaches its limit at the block boundary that is due expires at that
boundary (log entry 12), and one that does not reach it does nothing. That the relation also leaves the record of the FREE
supervisor, against R14's 'FREE positions are not touched', is log entry 36. -/
def Obligations.GraceExpiryReleasesEveryCall : Prop :=
  ∀ s : State, RecordLaw s → RelationLaw s →
    let clock := s.tmn
    let calls := (List.range 16).filter (fun p => (s.posAt p).call ≠ .free)
    let flushed (p : Nat) : Nat := (s.queueAt p).length +
      (match s.streamOf .whisper p with
       | some i => if (s.slotAt i).state = .stopping then 0 else 1
       | none => 0)
    let heldOn (k : Nat) : Nat := (calls.filter (fun p => (s.posAt p).hold == some k)).length
    let note (kind : NoticeKind) (p : Nat) (c : Option Cause) (v : Option Nat) : Notice :=
      { kind := kind, position := some p, subject := none, cause := c, value := v, stamp := clock.blockCount }
    (clock.running = true → 0 < clock.grace → 20 * clock.grace ≤ clock.elapsed →
      ∃ t, exec .graceTimerExpiry s = .next t ∧
        t.tmn = { clock with running := false } ∧
        (∀ p, p < 16 →
          t.posAt p =
            if (s.posAt p).call = .free then { s.posAt p with relation := none }
            else { s.posAt p with call := .free, binding := none, hold := none, cmdMute := false, btnMute := false,
                                  effMute := false, ramp := 40, relation := none }) ∧
        (∀ p, p < 16 → t.queueAt p = if (s.posAt p).call = .free then s.queueAt p else []) ∧
        t.waitList = calls.foldl (fun l p => l.erase p) s.waitList ∧
        (∀ i, 4 ≤ i → i < 24 →
          t.slotAt i =
            if calls.any (fun p => s.streamOf .whisper p == some i) then (s.slotAt i).stop .flushed
            else if calls.any (fun p => s.streamOf .caller p == some i) then (s.slotAt i).stop .released
            else s.slotAt i) ∧
        (∀ k, k < 4 →
          t.progAt k = { s.progAt k with listeners := (s.progAt k).listeners - heldOn k } ∧
          t.slotAt k =
            if 0 < heldOn k ∧ (s.progAt k).listeners ≤ heldOn k then (s.slotAt k).stop .noListeners
            else s.slotAt k) ∧
        t.floorQ =
          calls.foldl (fun q p =>
            let ended := match s.supervisorOf p with
              | some b => q.push (note .monitorEnded p (some .lineLoss) (some b)) s.resetHeld
              | none => q
            if flushed p = 0 then ended else ended.push (note .whisperFlushed p none (some (flushed p))) s.resetHeld)
            s.floorQ ∧
        t.callQ =
          calls.foldl (fun q p => q.push (note .callReleased p (some .lineLoss) none) s.resetHeld) s.callQ ∧
        t = { s with tmn := t.tmn, pos := t.pos, slot := t.slot, prog := t.prog, queue := t.queue,
                     waitList := t.waitList, callQ := t.callQ, floorQ := t.floorQ }) ∧
    (clock.running = true → 0 < clock.grace → clock.elapsed < 20 * clock.grace → 20 * clock.grace ≤ clock.elapsed + 1 →
      clock.elapsed < 5100 → 40 ≤ clock.frames → exec .graceTimerExpiry s = exec .blockBoundary s) ∧
    (clock.running = false ∨ clock.grace = 0 ∨ clock.elapsed + 1 < 20 * clock.grace ∨
      (clock.elapsed < 20 * clock.grace ∧ (5100 ≤ clock.elapsed ∨ clock.frames < 40)) →
      exec .graceTimerExpiry s = .next s)

/-- MUTE sets commanded mute and recomputes the effective mute; SET_CALL_GAINS and SET_SIDETONE store their codes, one
above 16383 as 16383, with the clamped mark (R16, R18, R21, R22, R191). -/
def Obligations.MuteAndGainsAreStored : Prop :=
  ∀ (st : Station) (p f rx tx : Nat) (s : State), p < 16 → rx < 65536 → tx < 65536 →
    (s.heeds st .call → f < 2 →
      exec (.mute st [toByte p, toByte f]) s =
        .next ((s.accepted.modPos p (fun x =>
          { x with cmdMute := f == 1, effMute := f == 1 || x.btnMute })).owe st 0x14 { status := .done })) ∧
    (s.heeds st .call →
      exec (.setCallGains st [toByte p, toByte (rx / 256), toByte rx, toByte (tx / 256), toByte tx]) s =
        .next ((s.accepted.modPos p (fun x => { x with rxGain := min 16383 rx, txGain := min 16383 tx })).owe st 0x15
          { status := .done, clamped := decide (16383 < rx ∨ 16383 < tx) })) ∧
    (s.heeds st .maint →
      exec (.setSidetone st [toByte p, toByte (rx / 256), toByte rx]) s =
        .next ((s.accepted.modPos p (fun x => { x with sidetone := min 16383 rx })).owe st 0x16
          { status := .done, clamped := decide (16383 < rx) }))

/-! ### Supervision (chapter 2) -/

/-- MONITOR makes or changes the relation on both records, with the live whisper gain in WHISPER and BARGE alone;
UNMONITOR ends it on both; and their checks come in the order of R24 (R23 to R27). -/
def Obligations.MonitorWritesBothRecords : Prop :=
  ∀ (st : Station) (b a m g : Nat) (s : State), s.heeds st .floor → b < 256 → a < 256 → m < 256 → g < 65536 →
    let body := [toByte b, toByte a, toByte m, toByte (g / 256), toByte g]
    let refused := s.refuses st 0x20
    (15 < b ∨ 15 < a ∨ 2 < m ∨ b = a → exec (.monitor st body) s = refused .range) ∧
    (b < 16 → a < 16 → m ≤ 2 → b ≠ a →
      ((s.posAt a).call = .free ∨ (s.posAt b).call ≠ .free → exec (.monitor st body) s = refused .state) ∧
      ((s.posAt a).call ≠ .free → (s.posAt b).call = .free →
        ((∃ c, c ≠ b ∧ s.supervisorOf a = some c) ∨ (∃ c, c ≠ a ∧ s.agentOf b = some c) →
          exec (.monitor st body) s = refused .inUse) ∧
        ((s.supervisorOf a = none ∨ s.supervisorOf a = some b) → (s.agentOf b = none ∨ s.agentOf b = some a) →
          let mode : MonitorMode := if m = 0 then .listen else if m = 1 then .whisper else .barge
          let gain : Option Nat := if m = 0 then none else some (min 16383 g)
          exec (.monitor st body) s =
            .next (((s.accepted.modPos b (fun x =>
                { x with relation := some { form := .monitoring, other := a, mode := mode, gain := gain } })).modPos a
              (fun x =>
                { x with relation := some { form := .monitoredBy, other := b, mode := mode, gain := gain } })).owe st
              0x20 { status := .done, clamped := decide (m ≠ 0 ∧ 16383 < g) })))) ∧
    (15 < a → exec (.unmonitor st [toByte a]) s = s.refuses st 0x21 .range) ∧
    (a < 16 → (s.supervisorOf a = none → exec (.unmonitor st [toByte a]) s = s.refuses st 0x21 .state) ∧
      (∀ c, s.supervisorOf a = some c →
        exec (.unmonitor st [toByte a]) s =
          .next (((s.accepted.modPos a (fun x => { x with relation := none })).modPos c
            (fun x => { x with relation := none })).owe st 0x21 { status := .done })))

/-- WHISPER_PROMPT: its checks in the order of R34; APPEND puts the item at the tail, INTERRUPT stops a sounding stream,
drops the tail of a full queue and puts the item at the head; and an item that is ready at once starts in the
lowest free general slot, or puts the position on the slot wait list; a position that waits there keeps its place (R34 to
R38, R129). That the new stream's slot has yielded nothing for it is log entry 18. -/
def Obligations.WhisperPromptsQueueOrStart : Prop :=
  ∀ (st : Station) (p c g m : Nat) (s : State), s.heeds st .floor → p < 256 → c < 256 → g < 65536 → m < 256 →
    let body := [toByte p, toByte c, toByte (g / 256), toByte g, toByte m]
    let refused := s.refuses st 0x22
    let it : WhisperItem := { clip := c, gain := min 16383 g, admission := if m = 0 then .append else .interrupt }
    let reply : Answer := { status := .done, clamped := decide (16383 < g) }
    (15 < p ∨ 127 < c ∨ 1 < m → exec (.whisperPrompt st body) s = refused .range) ∧
    (p < 16 → c < 128 → m ≤ 1 →
      ((s.posAt p).call = .free → exec (.whisperPrompt st body) s = refused .state) ∧
      ((s.posAt p).call ≠ .free →
        ((s.clipAt c).state ≠ .active → exec (.whisperPrompt st body) s = refused .state) ∧
        (∀ b, (s.clipAt c).state = .active → (s.clipAt c).body = some b →
          (b.cls ≠ .whisper → exec (.whisperPrompt st body) s = refused .cls) ∧
          (b.cls = .whisper → (s.clipAt c).fenced = true → exec (.whisperPrompt st body) s = refused .inUse) ∧
          (b.cls = .whisper → (s.clipAt c).fenced = false →
            (m = 0 → 4 ≤ (s.queueAt p).length → exec (.whisperPrompt st body) s = refused .queueFull) ∧
            (m = 0 → (s.queueAt p).length < 4 →
              (s.streamOf .whisper p ≠ none ∨ p ∈ s.waitList) →
              exec (.whisperPrompt st body) s =
                .next ((s.accepted.setQueue p (s.queueAt p ++ [it])).owe st 0x22 reply)) ∧
            (s.queueAt p = [] → s.streamOf .whisper p = none → p ∉ s.waitList →
              (s.freeSlot = none →
                exec (.whisperPrompt st body) s =
                  .next (((s.accepted.setQueue p [it]).setWait (s.waitList ++ [p])).owe st 0x22 reply)) ∧
              (∀ i, 4 ≤ i → i < 24 → (s.slotAt i).state = .idle →
                (∀ j, 4 ≤ j → j < i → (s.slotAt j).state ≠ .idle) →
                exec (.whisperPrompt st body) s =
                  .next (((s.accepted.modClip c (fun e => { e with use := e.use + 1 })).modSlot i (fun _ =>
                    { state := .priming, kind := some .whisper, target := some p, clip := some c, addr := b.start,
                      left := b.length, buffer := [], repeats := none, hears := none, gain := some (min 16383 g),
                      ramp := 40, dir := none, begun := false, cause := none, underrun := false, out := 0 })).owe st
                    0x22 reply))) ∧
            (∀ i, m = 1 → s.streamOf .whisper p = some i →
              let stopped := s.accepted.modSlot i (Slot.stop .interrupted)
              exec (.whisperPrompt st body) s =
                .next (((if (s.queueAt p).length < 4 then stopped
                    else stopped.post .floor .whisperEnded (some p) ((s.queueAt p).getLast?.map (·.clip))
                      (some .dropped) none).setQueue p (it :: (s.queueAt p).take 3)).owe st 0x22 reply)) ∧
            (m = 1 → s.streamOf .whisper p = none → p ∈ s.waitList →
              exec (.whisperPrompt st body) s =
                .next (((if (s.queueAt p).length < 4 then s.accepted
                    else s.accepted.post .floor .whisperEnded (some p) ((s.queueAt p).getLast?.map (·.clip))
                      (some .dropped) none).setQueue p (it :: (s.queueAt p).take 3)).owe st 0x22 reply))))))

/-- CLEAR_WHISPERS empties the queue, takes the position off the slot wait list, stops its sounding whisper stream with
cause FLUSHED, and reports the count in its reply and, when it is at least 1, to FLOOR (R39). -/
def Obligations.ClearWhispersReportsItsCount : Prop :=
  ∀ (st : Station) (p : Nat) (s : State), s.heeds st .floor → p < 256 →
    (15 < p → exec (.clearWhispers st [toByte p]) s = s.refuses st 0x23 .range) ∧
    (p < 16 →
      let stream := s.streamOf .whisper p
      let n := (s.queueAt p).length +
        (match stream with
         | some i => if (s.slotAt i).state = .stopping then 0 else 1
         | none => 0)
      let cleared := (s.accepted.setQueue p []).setWait (s.waitList.erase p)
      let stopped := match stream with
        | some i => cleared.modSlot i (Slot.stop .flushed)
        | none => cleared
      exec (.clearWhispers st [toByte p]) s =
        .next ((if n = 0 then stopped else stopped.post .floor .whisperFlushed (some p) none none (some n)).owe st 0x23
          { status := .done, data := [toByte n] }))

/-! ### The Mix Engine (chapter 3) -/

/-- First the arithmetic of the sums: saturation, rounding with halves away from zero, terms, and table T with its values of
Table 3-2 (section 0.5.2, R42, R43). Then a frame's samples, formed from the sources of the previous frame with the routing
as it stands and the ramp after the frame's step: the reference, the earpiece and the trunk-send sample, the block totals, and
MUTE_EFFECTIVE where a ramp reaches its target (R19, R20, R40, R49, R50, R53, R54, R168); what stands is named. In LOCKED no
frame begins without a boundary that a sync or a loss has made (R173). Beside the rules the model takes: that a complete block
ends, and the words of ports not yet heard come, within FRAME_BOUNDARY (log entries 12, 14, 15); that a slot's sample is 0 while
it is IDLE or PRIMING, and a programme's while it has no current clip (log entry 17); that the streams are those that stand
at formation (log entry 18), and the customer's binding too (log entry 39); and that a microphone's samples, once used, are 0
until the next word (log entry 38). -/
def Obligations.FramesFormTheSums : Prop :=
  (∀ v : Int, sat16 v = max (-32768) (min 32767 v)) ∧
  (∀ (a : Int) (b : Nat), 0 < b →
    2 * (a - b * roundDiv a b).natAbs ≤ b ∧
    (2 * (a - b * roundDiv a b).natAbs = b → a.natAbs < (b * roundDiv a b).natAbs)) ∧
  (∀ (x : Int) (g : Nat), term x g = roundDiv (x * g) 8192 ∧ scaled x g = roundDiv (x * g) 32768) ∧
  (∀ w, tableGain w = tableGain (w % 16) / 2 ^ (w / 16)) ∧
  (∀ i, i < 16 → (2 * tableGain i - 1) ^ 16 * 2 ^ i ≤ 65536 ^ 16 ∧ 65536 ^ 16 < (2 * tableGain i + 1) ^ 16 * 2 ^ i) ∧
  [0, 4, 8, 12, 16, 20, 24, 32, 33, 40, 48].map tableGain =
    [32768, 27554, 23170, 19484, 16384, 13777, 11585, 8192, 7844, 5792, 4096] ∧
  ∀ s : State, MuteLaw s →
    let begins := s.tmn.state ≠ .locked ∨ s.tmn.boundary ≠ none
    let sound (i : Nat) : Int :=
      if (s.slotAt i).state = .idle ∨ (s.slotAt i).state = .priming then 0 else (s.slotAt i).out
    let stream (k : StreamKind) (p : Nat) : Int :=
      match s.streamOf k p with
      | some i => term (sound i) ((s.slotAt i).gain.getD 0)
      | none => 0
    let heard (p : Nat) : Prop := ∃ i, s.streamOf .caller p = some i ∧ (s.slotAt i).hears = some true
    let customer (p : Nat) : Int :=
      match (s.posAt p).binding, s.hwy.rx with
      | some b, some rx => lawDecode (tget rx b.rx)
      | _, _ => 0
    let voice (p : Nat) : Int :=
      if (s.posAt p).call = .connected then term (customer p) (s.posAt p).rxGain else 0
    (∀ k p i, s.streamOf k p = some i ↔
      4 ≤ i ∧ i < 24 ∧ s.plays i k p ∧ ∀ j, 4 ≤ j → j < i → ¬ s.plays j k p) ∧
    (¬ begins → exec .frameBoundary s = .next s) ∧
    (begins → ∀ q : Fin 16, q.val = s.words →
      exec .frameBoundary s = execAll [.headsetWordArrival q 0, .frameBoundary] s) ∧
    (begins → 40 ≤ s.tmn.frames → exec .frameBoundary s = execAll [.blockBoundary, .frameBoundary] s) ∧
    (begins → 16 ≤ s.words → s.tmn.frames < 40 →
      ∃ u t, exec .frameBoundary s = .next t ∧ FrameRuns s u t ∧
        t = { s with tmn := t.tmn, pos := t.pos, link := t.link, ec := t.ec, mix := t.mix, hwy := t.hwy, clip := t.clip,
                     slot := t.slot, prog := t.prog, queue := t.queue, waitList := t.waitList,
                     store := { s.store with fetch := t.store.fetch }, words := 0, callQ := t.callQ, floorQ := t.floorQ,
                     maintQ := t.maintQ } ∧
        t.store.fetch.map (fun f => { f with live := false }) = s.store.fetch.map (fun f => { f with live := false }) ∧
        u.callQ = (List.range 16).foldl (fun q p =>
          if (s.posAt p).ramp = (if (s.posAt p).effMute then 1 else 39) then
            q.push { kind := .muteEffective, position := some p, subject := none, cause := none,
                     value := some (if (s.posAt p).effMute then 1 else 0), stamp := s.tmn.blockCount } s.resetHeld
          else q) s.callQ ∧
        ∀ p, p < 16 →
          let x := s.posAt p
          let m := s.mixAt p
          let n := t.mixAt p
          let ramp := if x.effMute then x.ramp - 1 else min 40 (x.ramp + 1)
          let monitored (f : Relation → Int) : Int :=
            match x.relation with
            | some r => if r.form = .monitoredBy then f r else 0
            | none => 0
          let listened : Int :=
            match x.relation with
            | some r => if r.form = .monitoring then (s.mixAt r.other).processed + voice r.other else 0
            | none => 0
          let live := monitored (fun r => if r.mode = .listen then 0 else term (s.mixAt r.other).processed (r.gain.getD 0))
          let barge := monitored (fun r => if r.mode = .barge then (s.mixAt r.other).processed else 0)
          let present := (∃ r, x.relation = some r ∧ r.form = .monitoredBy ∧ r.mode ≠ .listen) ∨
            ∃ i, s.streamOf .whisper p = some i ∧ (s.slotAt i).state ≠ .stopping
          let prompted := ∃ i, s.streamOf .caller p = some i ∧
            ((s.slotAt i).state = .playing ∨ (s.slotAt i).state = .ending)
          let guarded := scaled (live + stream .whisper p) (tableGain (s.levAt p).guard)
          t.posAt p = { x with ramp := ramp } ∧
          (heard p → n.x = sat16 (voice p + guarded + stream .caller p + listened)) ∧
          (¬ heard p → n.x = sat16 (voice p + guarded + listened)) ∧
          n.e = sat16 (n.x + term m.raw x.sidetone) ∧
          (x.call = .free → n.t = none) ∧
          (x.call = .connected →
            n.t = some (sat16 (roundDiv (term m.processed x.txGain * ramp) 40 + barge + stream .caller p))) ∧
          (x.call = .held →
            (prompted → n.t = some (sat16 (stream .caller p))) ∧
            (¬ prompted → ∀ k, x.hold = some k →
              n.t = some (sat16 (if (s.progAt k).clip = none then 0 else sound k)))) ∧
          n.energy = m.energy + guarded.natAbs ^ 2 ∧
          (present → n.presence = m.presence + 1) ∧ (¬ present → n.presence = m.presence) ∧
          n.raw = 0 ∧ n.processed = 0)

/-- No whisper-class source reaches a trunk: two states that differ only in whisper-class sound form the same trunk-send
samples for every position and drive the same bytes on the same send timeslots (R52). -/
def Obligations.NoWhisperReachesATrunk : Prop :=
  ∀ s u : State, RelationLaw s → RecordLaw s → SlotLaw s → WhisperAlike s u → 16 ≤ s.words → s.tmn.frames < 40 →
    ∃ t v, exec .frameBoundary s = .next t ∧ exec .frameBoundary u = .next v ∧
      (s.tmn.state ≠ .locked ∨ s.tmn.boundary ≠ none →
        (∀ p, p < 16 → (v.mixAt p).t = (t.mixAt p).t) ∧ v.hwy.tx = t.hwy.tx)

/-- The sample law: what every byte decodes to (R170), and what every 16-bit sample encodes to, with the round trip of
every byte but the negative zero (R171). -/
def Obligations.SampleLawDecodesAndEncodes : Prop :=
  (∀ b : Byte,
    let e := b.toNat / 16 % 8
    let m := b.toNat % 16
    let magnitude := ((2 * m + 33) * 2 ^ e - 33) * 4
    (lawDecode b).natAbs = magnitude ∧ (128 ≤ b.toNat → lawDecode b ≤ 0) ∧ (b.toNat < 128 → 0 ≤ lawDecode b) ∧
    magnitude ≤ 32124 ∧ (m < 15 → (lawDecode (b + 1)).natAbs = magnitude + 8 * 2 ^ e) ∧
    (lawDecode b = 0 ↔ b = 0 ∨ b = 128) ∧ (magnitude = 32124 ↔ e = 7 ∧ m = 15)) ∧
  lawDecode 255 = -32124 ∧
  (∀ v : Int, -32768 ≤ v → v ≤ 32767 →
    ∃ e m : Nat,
      let a := min 8158 (v.natAbs / 4) + 33
      33 ≤ a ∧ a ≤ 8191 ∧ 2 ^ (e + 5) ≤ a ∧ a < 2 ^ (e + 6) ∧ e ≤ 7 ∧ m = a / 2 ^ (e + 1) - 16 ∧ m ≤ 15 ∧
      (lawEncode v).toNat = (if v < 0 then 128 else 0) + 16 * e + m ∧
      (32636 ≤ v.natAbs → e = 7 ∧ m = 15)) ∧
  lawEncode (-32768) = 255 ∧
  (∀ b : Byte, b ≠ 128 → lawEncode (lawDecode b) = b) ∧ lawEncode (lawDecode 128) = 0

/-! ### Echo cancellation and the tap pool (chapters 4 and 5) -/

/-- One arrival at a canceller: with the link UP and at least one segment, the estimate, the cancelled sample, the power
sum and the state of the frame by the five tests in their order; with no segment, OFF and the sample itself; and then
the processed microphone and the block totals (R61 to R66, R89, R95, R96, R162). The word is one whose button is at the
stable level, and the word of the port that is next in its frame (R154, log entry 15). -/
def Obligations.ArrivalsAreCancelledAndJudged : Prop :=
  ∀ (p : Fin 16) (w : BitVec 19) (s : State), s.words = p.val → wordGood w = true → (s.linkAt p).state = .up →
    inboundButton w = (s.linkAt p).stable →
    let c := s.ecAt p
    let l := s.levAt p
    let d := inboundSample w
    let len := 32 * (s.segsOf p).length
    let xs := c.history.take len
    let taps := (s.coeffs p).map (fun a : Int => a / 65536)
    let e := if len = 0 then d else sat16 (d - sat16 (roundDiv (List.zipWith (· * ·) taps xs).sum 32768))
    let peak := xs.foldl (fun m x => max m x.natAbs) 0
    let power := if c.window = len then
        c.power + c.history.headD 0 * c.history.headD 0 - c.history.getD len c.gone * c.history.getD len c.gone
      else (xs.map (fun x => x * x)).sum
    let judged : Canceller :=
      if len = 0 then { c with state := .off, window := 0 }
      else if c.freeze then { c with power := power, window := len, state := .frozen }
      else if peak < 64 then { c with power := power, window := len, state := .quietRef }
      else if peak < d.natAbs * 2 ^ c.shift then
        { c with power := power, window := len, state := .doubleTalk, hangover := 240 }
      else if 0 < c.hangover then
        { c with power := power, window := len, state := .doubleTalk, hangover := c.hangover - 1 }
      else { c with power := power, window := len, state := .adapting }
    ∃ t, exec (.headsetWordArrival p w) s = .next t ∧
      t.ecAt p = judged ∧
      t.mixAt p = { s.mixAt p with raw := d, processed := scaled e (tableGain l.atten) } ∧
      t.levAt p = { l with energy := l.energy + e.natAbs ^ 2,
                           adapting := l.adapting + if judged.state = .adapting then 1 else 0 } ∧
      (∀ q, q < 16 → q ≠ p.val → t.ecAt q = s.ecAt q ∧ t.mixAt q = s.mixAt q ∧ t.levAt q = s.levAt q) ∧
      (judged.state ≠ .adapting → t.pool = s.pool) ∧
      t = { s with ec := t.ec, mix := t.mix, lev := t.lev, pool := t.pool, link := t.link, words := p.val + 1 }

/-- In an ADAPTING frame every coefficient of the position moves by the update gain times its history value, saturated to
32 bits, in the segments that hold it; the gain is truncated toward zero; and no other segment changes (R60, R67, R68). -/
def Obligations.AdaptingArrivalsMoveEveryTap : Prop :=
  ∀ (p : Fin 16) (w : BitVec 19) (s t : State), PoolLaw s → (s.segsOf p).length ≤ 8 → CancellerLaw s →
    s.words = p.val → wordGood w = true → (s.linkAt p).state = .up → inboundButton w = (s.linkAt p).stable →
    exec (.headsetWordArrival p w) s = .next t → (t.ecAt p).state = .adapting →
    let len := 32 * (s.segsOf p).length
    let xs := (s.ecAt p).history.take len
    let taps := (s.coeffs p).map (fun a : Int => a / 65536)
    let e := sat16 (inboundSample w - sat16 (roundDiv (List.zipWith (· * ·) taps xs).sum 32768))
    let gain := Int.tdiv (((s.ecAt p).step : Int) * e * 2 ^ 26) ((t.ecAt p).power + 256 * len)
    t.coeffs p = List.zipWith (fun a x => sat32 (a + gain * x)) (s.coeffs p) xs ∧
    (∀ g, g < 64 → g ∉ s.segsOf p → t.segAt g = s.segAt g) ∧
    (∀ g, g < 64 → (t.segAt g).owner = (s.segAt g).owner) ∧ (∀ q, q < 16 → t.segsOf q = s.segsOf q)

/-- The power sum stays exact. If it was the sum of the squares of the newest values of the history, then after one more
value has joined the history, the update of the next arrival makes it that sum again, also for the longest filter, and
a changed filter length forms it in full (R59, R63, R89); and every step keeps the power sums of the running cancellers so,
where the segments and the cancellers are as SegmentsStayAccountedFor keeps them. -/
def Obligations.PowerSumStaysExact : Prop :=
  (∀ (c : Canceller) (x : Int) (len : Nat), c.history.length = 256 → 1 ≤ len → len ≤ 256 →
    (c.push x).history = x :: c.history.take 255 ∧
    (c.window = len → c.power = powerOf (c.history.take len) →
      (c.push x).powerNow len = powerOf ((c.push x).history.take len)) ∧
    (c.window ≠ len → (c.push x).powerNow len = powerOf ((c.push x).history.take len))) ∧
  KeptByStep (fun s => PoolLaw s ∧ ShortfallLaw s ∧ CancellerLaw s) PowerLaw

/-- SET_EC stores its fields, each out of range as the nearest limit with the clamped mark, and hands the tap request to
the pool (RaisedAndLoweredRequestsMoveSegments); RESET_EC zeroes the position's coefficients and hangover and nothing
else (R70, R74, R191). -/
def Obligations.CancellerCommandsStoreAndZero : Prop :=
  ∀ (st : Station) (p a b f n : Nat) (s : State), s.heeds st .maint → p < 256 → a < 256 → b < 256 → f < 256 →
    n < 256 →
    (15 < p → exec (.setEc st [toByte p, toByte a, toByte b, toByte f, toByte n]) s = s.refuses st 0x30 .range ∧
      exec (.resetEc st [toByte p]) s = s.refuses st 0x31 .range) ∧
    (p < 16 →
      exec (.setEc st [toByte p, toByte a, toByte b, toByte f, toByte n]) s =
        .next ((setRequest p (min 8 n) (s.accepted.modEc p (fun c =>
            { c with step := max 1 (min 32 a), shift := min 4 b, freeze := decide (f ≠ 0) }))).owe st 0x30
          { status := .done, clamped := decide (a = 0 ∨ 32 < a ∨ 4 < b ∨ 1 < f ∨ 8 < n) }) ∧
      ∃ t, exec (.resetEc st [toByte p]) s = .next t ∧
        t.ecAt p = { s.ecAt p with hangover := 0 } ∧ (∀ q, q < 16 → q ≠ p → t.ecAt q = s.ecAt q) ∧
        (∀ g, g < 64 → t.segAt g =
          if g ∈ s.segsOf p then { s.segAt g with coeffs := List.replicate 32 0 } else s.segAt g) ∧
        t.pool.lists = s.pool.lists ∧ t.pool.short = s.pool.short ∧
        t = { s.accepted.owe st 0x31 { status := .done } with ec := t.ec, pool := t.pool })

/-- What a changed tap request does: nothing when it is as it was or the link is not UP but to be stored; a raised one
takes free segments, the lowest-numbered first, and a position left short joins the shortfall list, or keeps its place,
with TAP_SHORTFALL to MAINT; a lowered one frees segments from the tail, which hold zeros from then, and the free segments go
to the waiting positions: one at a time, the lowest-numbered to the head of the shortfall list, and a head that has its
request leaves the list, with TAP_GRANTED to MAINT (R80, R83 to R85, R88). -/
def Obligations.RaisedAndLoweredRequestsMoveSegments : Prop :=
  (∀ v : State, v.pool.short = [] ∨ (∀ g, g < 64 → (v.segAt g).owner ≠ none) → serveShort v = v) ∧
  (∀ (p g : Nat) (rest : List Nat) (v : State), v.pool.short = p :: rest → g < 64 → (v.segAt g).owner = none →
    (∀ j, j < g → (v.segAt j).owner ≠ none) →
    let w := (v.modSeg g (fun x => { x with owner := some p })).modSegs p (fun l => l ++ [g])
    let n := (w.segsOf p).length
    (n < (v.ecAt p).request → serveShort v = serveShort w) ∧
    ((v.ecAt p).request ≤ n →
      serveShort v =
        serveShort ((w.setShort rest).post .maint .tapGranted (some p) none none (some n)))) ∧
  ∀ (p r : Nat) (s : State), p < 16 → PoolLaw s →
    let held := s.segsOf p
    let stored := s.modEc p (fun c => { c with request := r })
    let free := (List.range 64).filter (fun g => (s.segAt g).owner.isNone)
    let got := free.take (r - held.length)
    (r = (s.ecAt p).request → setRequest p r s = s) ∧
    (r ≠ (s.ecAt p).request → (s.linkAt p).state ≠ .up → setRequest p r s = stored) ∧
    (r ≠ (s.ecAt p).request → (s.linkAt p).state = .up → held.length < r →
      let t := setRequest p r s
      t.segsOf p = held ++ got ∧ (∀ q, q < 16 → q ≠ p → t.segsOf q = s.segsOf q) ∧
      (∀ g, g < 64 → t.segAt g = if g ∈ got then { s.segAt g with owner := some p } else s.segAt g) ∧
      (held.length + got.length = r → t.pool.short = s.pool.short.erase p ∧ t.maintQ = s.maintQ) ∧
      (held.length + got.length < r →
        t.pool.short = (if p ∈ s.pool.short then s.pool.short else s.pool.short ++ [p]) ∧
        t.maintQ =
          s.maintQ.push { kind := .tapShortfall, position := some p, subject := none, cause := none,
                          value := some (256 * r + (held.length + got.length)), stamp := s.tmn.blockCount }
            s.resetHeld) ∧
      t = { stored with pool := t.pool, maintQ := t.maintQ }) ∧
    (r ≠ (s.ecAt p).request → (s.linkAt p).state = .up → r ≤ held.length →
      ∃ w, setRequest p r s = serveShort w ∧
        w.segsOf p = held.take r ∧ (∀ q, q < 16 → q ≠ p → w.segsOf q = s.segsOf q) ∧
        (∀ g, g < 64 → w.segAt g =
          if g ∈ held.drop r then { owner := none, coeffs := List.replicate 32 0 } else s.segAt g) ∧
        w.pool.short = s.pool.short.erase p ∧ w = { stored with pool := w.pool } ∧
        (s.pool.short.erase p = [] → setRequest p r s = w))

/-! ### Headset links (chapter 9) -/

/-- What each inbound word does to the link: the run of good words that brings it UP, the run of bad words that takes it
DOWN, the sample handed on, and the debounced button (R156, R158 to R164). A link that comes UP has its hangover and its
coefficients at 0 and takes free segments for its stored request, with TAP_SHORTFALL to MAINT when it stays short; one that
leaves UP gives all of them back to the waiting positions (RaisedAndLoweredRequestsMoveSegments), and its button mute is off
(R75, R86 to R88, R160, R161). From there the word's sample is handled as any other (ArrivalsAreCancelledAndJudged). One word
a frame comes from each port, in the order P0 to P15 (R154): a port that is passed over has yielded the word of an
unattached port, and a second word of a port in one frame is none (log entries 6 and 15). -/
def Obligations.HeadsetWordsMoveTheLink : Prop :=
  ∀ (p : Fin 16) (w : BitVec 19) (s : State),
    let l := s.linkAt p
    let d := inboundSample w
    let button := inboundButton w
    let run := exec (.headsetWordArrival p w) s
    let good := ones w % 2 = 0 ∧ inboundPresent w = true
    let held := s.segsOf p
    let got := ((List.range 64).filter (fun g => (s.segAt g).owner.isNone)).take ((s.ecAt p).request - held.length)
    let others (t : State) : Prop := ∀ q, q < 16 → q ≠ p.val →
      t.linkAt q = s.linkAt q ∧ t.ecAt q = s.ecAt q ∧ t.posAt q = s.posAt q ∧ t.mixAt q = s.mixAt q ∧
      t.levAt q = s.levAt q
    let note (k : NoticeKind) (v : Option Nat) : Notice :=
      { kind := k, position := some p.val, subject := none, cause := none, value := v, stamp := s.tmn.blockCount }
    (p.val < s.words → run = .next s) ∧
    (∀ q : Fin 16, q.val = s.words → q < p →
      run = execAll [.headsetWordArrival q 0, .headsetWordArrival p w] s) ∧
    (s.words = p.val → ∃ t, run = .next t ∧ others t ∧
      t = { s with link := t.link, pos := t.pos, ec := t.ec, pool := t.pool, mix := t.mix, lev := t.lev,
                   words := p.val + 1, callQ := t.callQ, maintQ := t.maintQ } ∧
      (good →
        (l.state = .down →
          t.linkAt p = { l with state := .probing, goodRun := 1 } ∧ (t.mixAt p).raw = 0 ∧ t.callQ = s.callQ ∧
          t.posAt p = s.posAt p) ∧
        (l.state = .probing → l.goodRun < 63 →
          t.linkAt p = { l with goodRun := l.goodRun + 1 } ∧ (t.mixAt p).raw = 0 ∧ t.callQ = s.callQ ∧
          t.posAt p = s.posAt p) ∧
        (l.state = .probing → 63 ≤ l.goodRun →
          t.linkAt p = { l with state := .up, goodRun := 0, badRun := 0, held := d, stable := button, change := 0 } ∧
          (t.mixAt p).raw = d ∧ t.posAt p = s.posAt p ∧ t.callQ = s.callQ.push (note .headsetUp none) s.resetHeld ∧
          (PoolLaw s → ∃ u, run = exec (.headsetWordArrival p w) u ∧ others u ∧
            u.linkAt p = t.linkAt p ∧ u.ecAt p = { s.ecAt p with hangover := 0 } ∧ u.callQ = t.callQ ∧
            u.segsOf p = held ++ got ∧ (∀ q, q < 16 → q ≠ p.val → u.segsOf q = s.segsOf q) ∧
            (∀ g, g < 64 → u.segAt g =
              if g ∈ held then { s.segAt g with coeffs := List.replicate 32 0 }
              else if g ∈ got then { owner := some p.val, coeffs := List.replicate 32 0 }
              else s.segAt g) ∧
            (let n := held.length + got.length
             ((s.ecAt p).request ≤ n → u.pool.short = s.pool.short.erase p ∧ u.maintQ = s.maintQ) ∧
             (n < (s.ecAt p).request →
              u.pool.short = (if p.val ∈ s.pool.short then s.pool.short else s.pool.short ++ [p.val]) ∧
              u.maintQ = s.maintQ.push (note .tapShortfall (some (256 * (s.ecAt p).request + n))) s.resetHeld)) ∧
            u = { s with link := u.link, ec := u.ec, pool := u.pool, callQ := u.callQ, maintQ := u.maintQ })) ∧
        (l.state = .up → button = l.stable →
          t.linkAt p = { l with badRun := 0, held := d, change := 0 } ∧ (t.mixAt p).raw = d ∧ t.callQ = s.callQ ∧
          t.posAt p = s.posAt p) ∧
        (l.state = .up → button ≠ l.stable → l.change < 159 →
          t.linkAt p = { l with badRun := 0, held := d, change := l.change + 1 } ∧ (t.mixAt p).raw = d ∧
          t.callQ = s.callQ ∧ t.posAt p = s.posAt p) ∧
        (l.state = .up → button ≠ l.stable → 159 ≤ l.change →
          t.linkAt p = { l with badRun := 0, held := d, stable := button, change := 0 } ∧ (t.mixAt p).raw = d ∧
          (button = false → t.callQ = s.callQ ∧ t.posAt p = s.posAt p) ∧
          (button = true →
            t.posAt p = { s.posAt p with btnMute := !(s.posAt p).btnMute,
                                         effMute := (s.posAt p).cmdMute || !(s.posAt p).btnMute } ∧
            t.callQ = s.callQ.push (note .buttonMute (some (if (s.posAt p).btnMute then 0 else 1))) s.resetHeld))) ∧
      (¬ good →
        (l.state = .down → t.linkAt p = l ∧ (t.mixAt p).raw = 0 ∧ t.callQ = s.callQ ∧ t.posAt p = s.posAt p) ∧
        (l.state = .probing →
          t.linkAt p = { l with state := .down, goodRun := 0 } ∧ (t.mixAt p).raw = 0 ∧ t.callQ = s.callQ ∧
          t.posAt p = s.posAt p) ∧
        (l.state = .up → l.badRun < 7 →
          t.linkAt p = { l with badRun := l.badRun + 1 } ∧ (t.mixAt p).raw = l.held ∧ t.callQ = s.callQ ∧
          t.posAt p = s.posAt p) ∧
        (l.state = .up → 7 ≤ l.badRun →
          t.linkAt p = { l with state := .down, goodRun := 0, badRun := 0, held := 0, stable := false, change := 0 } ∧
          (t.mixAt p).raw = 0 ∧ (t.mixAt p).processed = 0 ∧ (s.pool.short = [] → t.segsOf p = []) ∧
          (t.ecAt p).state = .off ∧
          t.posAt p = { s.posAt p with btnMute := false, effMute := (s.posAt p).cmdMute } ∧
          t.callQ = s.callQ.push (note .headsetDown none) s.resetHeld ∧
          (PoolLaw s → ∃ y : State,
            run = exec (.headsetWordArrival p w)
              ((((serveShort y).modEc p (fun c => { c with state := .off })).modPos p
                (fun x => { x with btnMute := false, effMute := x.cmdMute })).post .call .headsetDown (some p.val) none
                none none) ∧
            y.linkAt p = t.linkAt p ∧ (∀ q, q < 16 → q ≠ p.val → y.linkAt q = s.linkAt q) ∧
            y.segsOf p = [] ∧ (∀ q, q < 16 → q ≠ p.val → y.segsOf q = s.segsOf q) ∧
            (∀ g, g < 64 → y.segAt g =
              if g ∈ held then { owner := none, coeffs := List.replicate 32 0 } else s.segAt g) ∧
            y.pool.short = s.pool.short.erase p ∧ y = { s with link := y.link, pool := y.pool }))))

/-! ### Levels (chapter 6) -/

/-- The level of a positive integer (R94): 8 lu for each doubling and 1 lu for each eighth of an octave, with the bounds
of the levels that the part can form. -/
def Obligations.LevelOfAnInteger : Prop :=
  (∀ z : Nat, 1 ≤ z → ∃ k f, 2 ^ k ≤ z ∧ z < 2 ^ (k + 1) ∧ f = (z - 2 ^ k) * 8 / 2 ^ k ∧ f ≤ 7 ∧ lvl z = 8 * k + f) ∧
  lvl 1 = 0 ∧ lvl 2 = 8 ∧ (∀ z : Nat, 1 ≤ z → lvl (2 * z) = lvl z + 8) ∧
  (∀ y z : Nat, 1 ≤ y → y ≤ z → lvl y ≤ lvl z) ∧
  lvl 42949672960 = 282 ∧ (∀ e : Nat, e ≤ 42949672960 → lvl (e + 1) ≤ 287) ∧
  lvl 673672407040 = 313 ∧ (∀ w : Nat, w ≤ 673672407040 → lvl (w + 1) ≤ 313)

/-- The end of a block, for every position from the values that stand at it: level, noise floor, voice, bleed,
attenuation and whisper guard, in the order of Table 6-5, and both units' block totals restart; the block count rises
and a running grace timer counts. A block of fewer than 40 frames does not end (R97 to R104, R178, R182). That the words of
ports not yet heard come before it (log entry 15), and that a grace timer which reaches its limit at the boundary expires in
it (log entry 12), is the model's order. -/
def Obligations.BlockEndsMeasureAndSlew : Prop :=
  ∀ s : State, LevelLaw s →
    (s.tmn.frames < 40 → exec .blockBoundary s = .next s) ∧
    (40 ≤ s.tmn.frames → ∀ q : Fin 16, q.val = s.words →
      exec .blockBoundary s = execAll [.headsetWordArrival q 0, .blockBoundary] s) ∧
    (40 ≤ s.tmn.frames → 16 ≤ s.words → ∃ t : State,
      (let atLimit := t.tmn.running = true ∧ 0 < t.tmn.grace ∧ 20 * t.tmn.grace ≤ t.tmn.elapsed
       (¬ atLimit → exec .blockBoundary s = .next t) ∧ (atLimit → exec .blockBoundary s = exec .graceTimerExpiry t)) ∧
      t.tmn = { s.tmn with blockCount := if s.tmn.blockCount = 65535 then 0 else s.tmn.blockCount + 1, frames := 0,
                           elapsed := if s.tmn.running = true ∧ s.tmn.elapsed < 5100 then s.tmn.elapsed + 1
                             else s.tmn.elapsed } ∧
      t = { s with tmn := t.tmn, lev := t.lev, mix := t.mix } ∧
      ∀ p, p < 16 →
        let par := s.params
        let l := s.levAt p
        let v := t.levAt p
        let m := s.mixAt p
        let level := if (s.linkAt p).state = .up then lvl (l.energy + 1) else 0
        let opened := (s.posAt p).call = .connected ∧ (s.posAt p).ramp = 40
        let target := if v.voice = true ∧ v.bleed = false then 0 else par.attenMost
        let leaks := 20 ≤ m.presence ∧ 20 ≤ l.adapting ∧ opened ∧
          (lvl (m.energy + 1) : Int) - par.leak ≤ (level : Int) ∧ v.floor + par.guard ≤ level
        v.level = level ∧
        (level < l.floor → v.floor = level ∧ v.rise = 0) ∧
        (l.floor ≤ level → l.rise + 1 < par.interval → v.floor = l.floor ∧ v.rise = l.rise + 1) ∧
        (l.floor ≤ level → par.interval ≤ l.rise + 1 → v.floor = min 287 (l.floor + 1) ∧ v.rise = 0) ∧
        (v.raw = true ↔ v.floor + par.voice ≤ level) ∧
        v.hang = (if v.raw then 10 else l.hang - 1) ∧ (v.voice = true ↔ v.raw = true ∨ 0 < v.hang) ∧
        (v.bleed = true ↔ ∃ j ∈ l.neighbours, (t.levAt j).raw = true ∧ level + par.bleed ≤ (t.levAt j).level) ∧
        v.atten = (if target < l.atten then max target (l.atten - 16) else min target (l.atten + 2)) ∧
        (¬ opened → v.guard = l.guard ∧ v.fall = l.fall) ∧
        (opened → leaks → v.guard = min 48 (l.guard + 4) ∧ v.fall = 0) ∧
        (opened → ¬ leaks → l.guard = 0 → v.guard = 0 ∧ v.fall = l.fall) ∧
        (opened → ¬ leaks → 0 < l.guard → l.fall < 39 → v.guard = l.guard ∧ v.fall = l.fall + 1) ∧
        (opened → ¬ leaks → 0 < l.guard → 39 ≤ l.fall → v.guard = l.guard - 1 ∧ v.fall = 0) ∧
        v.neighbours = l.neighbours ∧ v.energy = 0 ∧ v.adapting = 0 ∧
        t.mixAt p = { m with energy := 0, presence := 0 })

/-- SET_LEVELS stores the six parameters, each out of range as the nearest limit with the clamped mark, and lowers every
attenuation that stands above the new A_max; nothing else changes (R106, R107, R191). -/
def Obligations.SetLevelsStoresAndLowers : Prop :=
  ∀ (st : Station) (v b a i g d : Nat) (s : State), s.heeds st .maint → v < 256 → b < 256 → a < 256 → i < 256 →
    g < 256 → d < 256 →
    ∃ t, exec (.setLevels st [toByte v, toByte b, toByte a, toByte i, toByte g, toByte d]) s = .next t ∧
      t.params = { voice := min 96 v, bleed := min 96 b, attenMost := min 96 a, interval := max 1 (min 64 i),
                   guard := min 96 g, leak := d } ∧
      (∀ p, p < 16 → t.levAt p = { s.levAt p with atten := min (s.levAt p).atten (min 96 a) }) ∧
      t = { s.accepted.owe st 0x32
              { status := .done, clamped := decide (96 < v ∨ 96 < b ∨ 96 < a ∨ i = 0 ∨ 64 < i ∨ 96 < g) } with
            params := t.params, lev := t.lev }

/-- SET_NEIGHBOURS is of the MAINT role and is checked as a whole (R108), and one that passes replaces the list of its
position alone, in the order given, in every call and link state (R109). -/
def Obligations.SetNeighboursReplacesTheList : Prop :=
  (∀ (st : Station) (r : Role) (ps : List Byte) (s : State), stationRole st = some r → r ≠ .maint →
    exec (.setNeighbours st ps) s = s.refuses st 0x33 .role) ∧
  ∀ (st : Station) (p n : Nat) (list : List Byte) (s : State), s.heeds st .maint → p < 256 → n < 256 →
    let faulty := 15 < p ∨ 4 < n ∨ (∃ b ∈ list, 15 < b.toNat ∨ b.toNat = p) ∨ ¬ list.Nodup
    (list.length ≠ n →
      exec (.setNeighbours st (toByte p :: toByte n :: list)) s = s.refuses st 0x33 .length) ∧
    (list.length = n → faulty →
      exec (.setNeighbours st (toByte p :: toByte n :: list)) s = s.refuses st 0x33 .range) ∧
    (list.length = n → ¬ faulty →
      exec (.setNeighbours st (toByte p :: toByte n :: list)) s =
        .next ((s.accepted.modLev p (fun l => { l with neighbours := list.map (·.toNat) })).owe st 0x33
          { status := .done }))

/-! ### Clips, streams and programmes (chapter 7) -/

/-- CLIP_LOAD writes its entry, CLIP_DELETE empties or retires it, with the checks of each in their order; no other entry
changes, no notice is posted, and a refused command changes nothing (R114, R115). -/
def Obligations.CatalogueCommandsChangeOneEntry : Prop :=
  ∀ (st : Station) (c cl start len loop : Nat) (s : State), s.heeds st .maint → c < 256 → cl < 256 →
    start < 16777216 → len < 16777216 → loop < 16777216 →
    let body := [toByte c, toByte cl, toByte (start / 65536), toByte (start / 256), toByte start,
      toByte (len / 65536), toByte (len / 256), toByte len, toByte (loop / 65536), toByte (loop / 256), toByte loop]
    let fits := c < 128 ∧ cl ≤ 2 ∧ start % 64 = 0 ∧ 4096 ≤ start ∧ 1 ≤ len ∧ start + len ≤ 16777216 ∧
      (cl = 0 → loop < len)
    let bound := ∃ k, k < 4 ∧ ((s.progAt k).clip = some c ∨ (s.progAt k).pending = .clip c)
    let e := s.clipAt c
    (¬ fits → exec (.clipLoad st body) s = s.refuses st 0x40 .range) ∧
    (fits → e.state = .retiring ∨ 0 < e.use ∨ bound ∨ e.fenced = true →
      exec (.clipLoad st body) s = s.refuses st 0x40 .inUse) ∧
    (fits → e.state ≠ .retiring → e.use = 0 → ¬ bound → e.fenced = false →
      exec (.clipLoad st body) s =
        .next ((s.accepted.modClip c (fun _ =>
          { state := .active
            body := some { cls := if cl = 0 then .music else if cl = 1 then .whisper else .caller, start := start,
                           length := len, loop := if cl = 0 then some loop else none }
            use := 0
            fenced :=
              match s.store.op with
              | some o => decide (start < o.start + o.size ∧ o.start < start + len)
              | none => false })).owe st 0x40 { status := .done })) ∧
    (127 < c → exec (.clipDelete st [toByte c]) s = s.refuses st 0x41 .range) ∧
    (c < 128 →
      (e.state ≠ .active → exec (.clipDelete st [toByte c]) s = s.refuses st 0x41 .state) ∧
      (e.state = .active → bound → exec (.clipDelete st [toByte c]) s = s.refuses st 0x41 .inUse) ∧
      (e.state = .active → ¬ bound → e.use = 0 →
        exec (.clipDelete st [toByte c]) s =
          .next ((s.accepted.modClip c (fun _ => { state := .empty, body := none, use := 0, fenced := false })).owe st
            0x41 { status := .done, data := [0] })) ∧
      (e.state = .active → ¬ bound → 0 < e.use →
        exec (.clipDelete st [toByte c]) s =
          .next ((s.accepted.modClip c (fun e => { e with state := .retiring })).owe st 0x41
            { status := .done, data := [2] })))

/-- SET_PROGRAMME: its checks in order, and what it does by the state of slot S_k: an IDLE slot takes the clip, or loses
it, at once, and starts if there are listeners; any other slot gets a pending change, or loses the one it has (R134,
R118). The slot of a programme that starts keeps the sample it yielded last (log entry 17). -/
def Obligations.ProgrammeChangesWaitForTheSlot : Prop :=
  ∀ (st : Station) (k c : Nat) (s : State), s.heeds st .maint → k < 256 → c < 256 →
    let g := s.progAt k
    let idle := (s.slotAt k).state = .idle
    let run := exec (.setProgramme st [toByte k, toByte c]) s
    let done (t : State) : Host.Outcome State Fault Refusal := .next (t.owe st 0x42 { status := .done })
    let changed (f : Programme → Programme) := s.accepted.modProg k f
    (3 < k ∨ (127 < c ∧ c ≠ 255) → run = s.refuses st 0x42 .range) ∧
    (k < 4 → c = 255 →
      (idle → run = done (changed (fun g => { g with clip := none, pending := .empty }))) ∧
      (¬ idle → run = done (changed (fun g => { g with pending := .none })))) ∧
    (k < 4 → c < 128 →
      ((s.clipAt c).state ≠ .active → run = s.refuses st 0x42 .state) ∧
      (∀ b, (s.clipAt c).state = .active → (s.clipAt c).body = some b →
        (b.cls ≠ .music → run = s.refuses st 0x42 .cls) ∧
        (b.cls = .music → (s.clipAt c).fenced = true → run = s.refuses st 0x42 .inUse) ∧
        (b.cls = .music → (s.clipAt c).fenced = false →
          (¬ idle → g.clip = some c → run = done (changed (fun g => { g with pending := .empty }))) ∧
          (¬ idle → g.clip ≠ some c → run = done (changed (fun g => { g with pending := .clip c }))) ∧
          (idle → g.listeners = 0 → run = done (changed (fun g => { g with clip := some c, pending := .empty }))) ∧
          (idle → 0 < g.listeners →
            run = done (((changed (fun g => { g with clip := some c, pending := .empty })).modClip c
              (fun e => { e with use := e.use + 1 })).modSlot k (fun y =>
                { state := .priming, kind := some .programme, target := some k, clip := some c, addr := b.start,
                  left := b.length, buffer := [], repeats := none, hears := none, gain := some 8192, ramp := 40,
                  dir := none, begun := false, cause := none, underrun := false, out := y.out }))))))

/-- CALLER_PROMPT and STOP_PROMPT: the checks in their order; a prompt that passes starts in the lowest free general slot
and reports it; a stop acts on a sounding caller stream (R118, R125, R126, R127). That the new stream's slot has yielded
nothing for it is log entry 18. -/
def Obligations.CallerPromptsStartAndStop : Prop :=
  ∀ (st : Station) (p c g n h : Nat) (s : State), s.heeds st .call → p < 256 → c < 256 → g < 65536 → n < 256 → h < 256 →
    let body := [toByte p, toByte c, toByte (g / 256), toByte g, toByte n, toByte h]
    let run := exec (.callerPrompt st body) s
    let refused := s.refuses st 0x43
    (15 < p ∨ 127 < c ∨ n = 0 ∨ 15 < n ∨ 1 < h → run = refused .range) ∧
    (p < 16 → c < 128 → 1 ≤ n → n ≤ 15 → h ≤ 1 →
      ((s.posAt p).call = .free ∨ (s.clipAt c).state ≠ .active → run = refused .state) ∧
      (∀ b, (s.posAt p).call ≠ .free → (s.clipAt c).state = .active → (s.clipAt c).body = some b →
        (b.cls ≠ .caller → run = refused .cls) ∧
        (b.cls = .caller → (s.clipAt c).fenced = true → run = refused .inUse) ∧
        (b.cls = .caller → (s.clipAt c).fenced = false →
          (s.streamOf .caller p ≠ none → run = refused .inUse) ∧
          (s.streamOf .caller p = none → (∀ j, 4 ≤ j → j < 24 → (s.slotAt j).state ≠ .idle) →
            run = refused .noRoom) ∧
          (∀ i, s.streamOf .caller p = none → 4 ≤ i → i < 24 → (s.slotAt i).state = .idle →
            (∀ j, 4 ≤ j → j < i → (s.slotAt j).state ≠ .idle) →
            run =
              .next (((s.accepted.modClip c (fun e => { e with use := e.use + 1 })).modSlot i (fun _ =>
                { state := .priming, kind := some .caller, target := some p, clip := some c, addr := b.start,
                  left := b.length, buffer := [], repeats := some (n - 1), hears := some (h == 1),
                  gain := some (min 16383 g), ramp := 40, dir := none, begun := false, cause := none,
                  underrun := false, out := 0 })).owe st 0x43
                { status := .done, clamped := decide (16383 < g), data := [toByte i] }))))) ∧
    (15 < p → exec (.stopPrompt st [toByte p]) s = s.refuses st 0x44 .range) ∧
    (p < 16 →
      (s.streamOf .caller p = none → exec (.stopPrompt st [toByte p]) s = s.refuses st 0x44 .state) ∧
      (∀ i, s.streamOf .caller p = some i →
        ((s.slotAt i).state = .stopping → exec (.stopPrompt st [toByte p]) s = s.refuses st 0x44 .state) ∧
        ((s.slotAt i).state ≠ .stopping →
          exec (.stopPrompt st [toByte p]) s =
            .next ((s.accepted.modSlot i (fun x =>
              { x with state := .stopping, dir := some .falling, cause := some .stopped })).owe st 0x44
                { status := .taken }))))

/-- In every frame each slot yields one sample by its state (R122, R124): here the slots that do not reach IDLE in the
frame, whatever the other slots of the frame do; a slot that stands at IDLE yields 0. A new underrun episode posts one
STREAM_UNDERRUN, the later frames of it none. -/
def Obligations.SlotsYieldOneSampleAFrame : Prop :=
  ∀ (s : State) (i : Nat), s.tmn.state ≠ .locked ∨ s.tmn.boundary ≠ none → s.tmn.frames < 40 → i < 24 →
    ∃ t, exec .frameBoundary s = .next t ∧ (16 ≤ s.words → ∃ u, FrameRuns s u t) ∧
      let x := s.slotAt i
      (x.state = .idle → (t.slotAt i).out = 0) ∧
      (x.state = .priming → t.slotAt i = { x with out := 0 }) ∧
      (∀ y ys, x.state = .playing → x.buffer = y :: ys → t.slotAt i = { x with buffer := ys, out := y }) ∧
      (x.state = .playing → x.buffer = [] →
        t.slotAt i = { x with out := 0, underrun := true } ∧
        (x.underrun = false →
          slotFrame i s =
            let u := s.modSlot i (fun x => { x with out := 0, underrun := true })
            match x.kind with
            | some .whisper => u.post .floor .streamUnderrun x.target (some i) none x.clip
            | some .caller => u.post .call .streamUnderrun x.target (some i) none x.clip
            | some .programme => u.post .maint .streamUnderrun none (some i) none x.clip
            | none => u) ∧
        (x.underrun = true → slotFrame i s = s.modSlot i (fun x => { x with out := 0 }))) ∧
      (∀ y z ys, x.state = .ending → x.buffer = y :: z :: ys →
        t.slotAt i = { x with buffer := z :: ys, out := y }) ∧
      (x.state = .stopping → x.begun = false → x.dir = some .falling → 1 < x.ramp →
        t.slotAt i = { x with ramp := x.ramp - 1, out := 0 }) ∧
      (∀ ys, x.state = .stopping → x.begun = true → x.dir = some .falling → 1 < x.ramp → x.buffer = ys →
        ys.length ≠ 1 ∨ 0 < x.left →
        t.slotAt i =
          { x with ramp := x.ramp - 1, buffer := ys.tail, out := roundDiv (ys.headD 0 * (x.ramp - 1 : Nat)) 40 }) ∧
      (∀ ys, x.state = .stopping → x.begun = true → x.dir = some .rising → x.ramp < 40 → x.buffer = ys →
        ys.length ≠ 1 ∨ 0 < x.left →
        t.slotAt i =
          { x with ramp := x.ramp + 1, buffer := ys.tail, out := roundDiv (ys.headD 0 * (x.ramp + 1 : Nat)) 40,
                   state := if x.ramp + 1 = 40 then .playing else .stopping,
                   dir := if x.ramp + 1 = 40 then none else x.dir,
                   cause := if x.ramp + 1 = 40 then none else x.cause })

/-- The work of each slot in a frame, what brings a slot to IDLE, and what follows from it in its order. FRAME_BOUNDARY runs
the slots S0 to S23 one after the other. A slot that plays out, or whose fade ends, reaches IDLE: the use count falls, the end
notice is posted and then CLIP_FREED, the slot is reset, a fetch begun for it is dead, and then a freed general slot serves the
slot wait list and the position's own queue, or the programme takes its pending change and starts anew. A slot that is given
to a position starts its first usable item; the items before it are removed with WHISPER_ENDED cause UNAVAILABLE, and with no
usable item the slot passes on (R38, R116, R122, R123, R129, R130, R133, R135). Beside the rules the model takes: that a new
stream's slot has yielded nothing for it (log entry 18), while a programme's slot goes on with its last sample (log entry 17);
the order of the effects at IDLE (log entry 33); and the cause COMPLETED of a rising slot that takes its last sample (log
entry 45). -/
def Obligations.SlotsReachIdleInOrder : Prop :=
  let started (i : Nat) (k : StreamKind) (p c gain : Nat) (b : ClipBody) (out : Slot → Int) (u : State) : State :=
    (u.modClip c (fun e => { e with use := e.use + 1 })).modSlot i (fun y =>
      { state := .priming, kind := some k, target := some p, clip := some c, addr := b.start, left := b.length,
        buffer := [], repeats := none, hears := none, gain := some gain, ramp := 40, dir := none, begun := false,
        cause := none, underrun := false, out := out y })
  let usable (v : State) (it : WhisperItem) (b : ClipBody) : Prop := (v.clipAt it.clip).state = .active ∧
    (v.clipAt it.clip).body = some b ∧ b.cls = .whisper ∧ (v.clipAt it.clip).fenced = false
  let removed (p : Nat) (l : List WhisperItem) (v : State) : State :=
    l.foldl (fun u it => u.post .floor .whisperEnded (some p) (some it.clip) (some .unavailable) none) v
  (∀ s : State, s.tmn.state ≠ .locked ∨ s.tmn.boundary ≠ none → 16 ≤ s.words → s.tmn.frames < 40 →
    ∃ u t, exec .frameBoundary s = .next t ∧ FrameRuns s u t) ∧
  (∀ (i : Nat) (v : State), i < 24 →
    let x := v.slotAt i
    let becomes (y : Slot) : State := v.modSlot i (fun _ => y)
    let run := slotFrame i v
    (x.state = .idle ∨ x.state = .priming → run = becomes { x with out := 0 }) ∧
    (∀ y ys, x.state = .playing → x.buffer = y :: ys → run = becomes { x with buffer := ys, out := y }) ∧
    (x.state = .playing → x.buffer = [] →
      let u := becomes { x with out := 0, underrun := true }
      (x.underrun = true → run = u) ∧
      (x.underrun = false → run =
        match x.kind with
        | some .whisper => u.post .floor .streamUnderrun x.target (some i) none x.clip
        | some .caller => u.post .call .streamUnderrun x.target (some i) none x.clip
        | some .programme => u.post .maint .streamUnderrun none (some i) none x.clip
        | none => u)) ∧
    (∀ y z ys, x.state = .ending → x.buffer = y :: z :: ys → run = becomes { x with buffer := z :: ys, out := y }) ∧
    (x.state = .ending → x.buffer.length ≤ 1 →
      run = reachIdle i .completed (becomes { x with buffer := [], out := x.buffer.headD 0 })) ∧
    (∀ d, x.state = .stopping → x.dir = some d → x.ramp ≤ 40 →
      let r := if d = .rising then min 40 (x.ramp + 1) else x.ramp - 1
      let moved := if x.begun then
          { x with ramp := r, buffer := x.buffer.tail, out := roundDiv (x.buffer.headD 0 * r) 40 }
        else { x with ramp := r, out := 0 }
      let last := x.begun = true ∧ x.buffer.length = 1 ∧ x.left = 0
      (last ∨ (d = .falling ∧ r = 0) → run = reachIdle i (x.cause.getD .completed) (becomes moved)) ∧
      (¬ last → d = .falling → 0 < r → run = becomes moved) ∧
      (¬ last → d = .rising → r < 40 → run = becomes moved) ∧
      (¬ last → d = .rising → r = 40 →
        run = becomes { moved with state := .playing, dir := none, cause := none }))) ∧
  (∀ (i c : Nat) (cause : Cause) (v : State), i < 24 → c < 128 → (v.slotAt i).clip = some c →
    let x := v.slotAt i
    let e := v.clipAt c
    let ended :=
      match x.kind with
      | some .whisper => v.post .floor .whisperEnded x.target (some c) (some cause) none
      | some .caller => v.post .call .promptEnded x.target (some c) (some cause) none
      | some .programme => v.post .maint .programmeEnded none x.target (some cause) (some c)
      | none => v
    let freed :=
      if e.state = .retiring ∧ e.use ≤ 1 then
        (ended.modClip c (fun _ => { state := .empty, body := none, use := 0, fenced := false })).post .maint .clipFreed
          none (some c) none none
      else ended.modClip c (fun e => { e with use := e.use - 1 })
    let idle := (freed.modSlot i (fun y =>
        { state := .idle, kind := if i < 4 then some .programme else none, target := if i < 4 then some i else none,
          clip := none, addr := 0, left := 0, buffer := [], repeats := none, hears := none,
          gain := if i < 4 then some 8192 else none, ramp := 40, dir := none, begun := false, cause := none,
          underrun := false, out := y.out })).modStore (fun u =>
        { u with fetch := u.fetch.map (fun f => if f.slot = i then { f with live := false } else f) })
    (x.kind = some .caller → reachIdle i cause v = serveWaiting i v.waitList idle) ∧
    (∀ p, x.kind = some .whisper → x.target = some p →
      reachIdle i cause v = headReady p (serveWaiting i v.waitList idle)) ∧
    (x.kind = some .programme → i < 4 →
      let now :=
        match (v.progAt i).pending with
        | .empty => idle
        | .clip d => (idle.modProg i (fun g => { g with clip := some d, pending := .empty })).post .maint
            .programmeChanged none (some i) none (some d)
        | .none => (idle.modProg i (fun g => { g with clip := none, pending := .empty })).post .maint
            .programmeChanged none (some i) none none
      let q := (now.progAt i).clip
      ((v.progAt i).listeners = 0 ∨ q = none → reachIdle i cause v = now) ∧
      (∀ d b, 0 < (v.progAt i).listeners → q = some d → (now.clipAt d).body = some b →
        reachIdle i cause v = started i .programme i d 8192 b (·.out) now))) ∧
  (∀ (i : Nat) (v : State),
    (v.waitList = [] → serveWaiting i v.waitList v = v) ∧
    (∀ p more, v.waitList = p :: more →
      (∀ pre it rest b, v.queueAt p = pre ++ it :: rest → (∀ y ∈ pre, ∀ b, ¬ usable v y b) → usable v it b →
        serveWaiting i v.waitList v =
          started i .whisper p it.clip it.gain b (fun _ => 0) ((removed p pre (v.setWait more)).setQueue p rest)) ∧
      ((∀ y ∈ v.queueAt p, ∀ b, ¬ usable v y b) →
        let u := (removed p (v.queueAt p) (v.setWait more)).setQueue p []
        serveWaiting i v.waitList v = serveWaiting i u.waitList u))) ∧
  ∀ (p : Nat) (v : State),
    let waits := v.queueAt p ≠ [] ∧ v.streamOf .whisper p = none ∧ p ∉ v.waitList
    (¬ waits → headReady p v = v) ∧
    (waits → (∀ j, 4 ≤ j → j < 24 → (v.slotAt j).state ≠ .idle) → headReady p v = v.setWait (v.waitList ++ [p])) ∧
    (∀ i, waits → 4 ≤ i → i < 24 → (v.slotAt i).state = .idle → (∀ j, 4 ≤ j → j < i → (v.slotAt j).state ≠ .idle) →
      (∀ pre it rest b, v.queueAt p = pre ++ it :: rest → (∀ y ∈ pre, ∀ b, ¬ usable v y b) → usable v it b →
        headReady p v = started i .whisper p it.clip it.gain b (fun _ => 0) ((removed p pre v).setQueue p rest)) ∧
      ((∀ y ∈ v.queueAt p, ∀ b, ¬ usable v y b) →
        let u := (removed p (v.queueAt p) v).setQueue p []
        headReady p v = serveWaiting i u.waitList u))

/-! ### The store link (chapter 8) -/

/-- The arbiter grants the free link to the first slot that asks, from the slot after the last served one on, S0 following
S23; a grant over a running erase sends suspend; and with no slot asking, a busy link, a step that has begun, or a
STORE_READ pending, nothing is granted (R119, R140, R141, R144, R153). That a step which has begun and waits for the store
keeps the link, though the activity is still IDLE, is log entry 19. -/
def Obligations.FetchesAreGrantedInTurn : Prop :=
  ∀ s : State,
    let u := s.store
    let asks (i : Nat) := ((s.slotAt i).state = .priming ∨ (s.slotAt i).state = .playing ∨
      (s.slotAt i).state = .stopping) ∧ (s.slotAt i).buffer.length ≤ 192 ∧ 0 < (s.slotAt i).left
    let free := (u.activity = .idle ∨ u.activity = .eraseRunning ∨ u.activity = .eraseSuspended) ∧
      s.phase ≠ some .waitReady ∧ u.read = none
    let after (i : Nat) := (i + 48 - (u.lastServed + 1)) % 24
    (∀ i, free → u.lastServed < 24 → i < 24 → asks i → (∀ j, j < 24 → asks j → after i ≤ after j) →
      exec .fetchGrant s =
        .next { s with store :=
          { u with
            activity := .fetch
            lastServed := i
            fetch := some { slot := i, addr := (s.slotAt i).addr, count := min 64 (s.slotAt i).left, live := true,
                            clock := 0 }
            op := if u.activity = .eraseRunning then u.op.map (fun o => { o with phase := .suspending, clock := 0 })
              else u.op
            request := if u.activity = .eraseRunning ∧ u.op.isSome then some .suspend else u.request } }) ∧
    (¬ free ∨ (∀ j, j < 24 → ¬ asks j) → exec .fetchGrant s = .next s)

/-- A fetch's bytes arrive at its slot: decoded behind the buffer, with the end of an underrun episode and of priming, and
at the last sample of a pass what R120 gives for the slot's kind. A dead fetch brings nothing, and a fetch that fails
changes no slot (R119 to R121, R124, R141). That an arrival of another length changes nothing is log entry 6, and that the
read is recorded, and a suspend answered, at the arrival is log entries 8 and 32. -/
def Obligations.ArrivalsFillTheSlot : Prop :=
  ∀ (bytes : List Byte) (f : Fetch) (s : State), s.store.fetch = some f → bytes.length = f.count →
    let u := s.store
    let paused := s.phase = some .suspending ∨ s.phase = some .suspended
    let closed : Store := { u with fetch := none, activity := if paused then .eraseSuspended else .idle }
    let answered : Store :=
      { closed with
        op := u.op.map (fun o => if o.phase = .suspending then { o with phase := .suspended } else o)
        request := some (.read f.addr f.count) }
    let base : State := { s with store := answered }
    let i := f.slot
    let x := s.slotAt i
    let filled : Slot :=
      { x with buffer := x.buffer ++ bytes.map lawDecode, addr := x.addr + bytes.length, left := x.left - bytes.length,
               underrun := false }
    let settled (y : Slot) : Slot :=
      if y.state = .playing ∧ y.left = 0 then { y with state := .ending }
      else if y.state = .priming ∧ (128 ≤ y.buffer.length ∨ y.left = 0) then
        { y with state := if y.left = 0 then .ending else .playing, begun := true }
      else y
    let run := exec (.fetchArrival bytes) s
    exec .fetchTimeout s = .next { s with store := closed } ∧
    (∀ extra, exec (.fetchArrival (extra :: bytes)) s = .next s) ∧
    (f.live = false → run = .next base) ∧
    (f.live = true → i < 24 →
      (bytes.length < x.left → run = .next (base.modSlot i (fun _ => settled filled))) ∧
      (x.left ≤ bytes.length →
        (x.kind = some .whisper → run = .next (base.modSlot i (fun _ => settled filled))) ∧
        (x.kind = some .caller → x.repeats = some 0 → run = .next (base.modSlot i (fun _ => settled filled))) ∧
        (∀ n c b, x.kind = some .caller → x.repeats = some (n + 1) → x.clip = some c → (s.clipAt c).body = some b →
          run = .next (base.modSlot i (fun _ =>
            settled { filled with addr := b.start, left := b.length, repeats := some n }))) ∧
        (∀ c b, x.kind = some .programme → (s.progAt i).pending = .empty → x.clip = some c →
          (s.clipAt c).body = some b →
          run = .next (base.modSlot i (fun _ =>
            settled { filled with addr := b.start + b.loop.getD 0, left := b.length - b.loop.getD 0 }))) ∧
        (x.kind = some .programme → (s.progAt i).pending = .none → i < 4 →
          let turned : Slot :=
            if x.state = .stopping ∧ x.dir = some .rising then
              { filled with dir := some .falling, cause := some .noListeners }
            else filled
          run = .next (((base.modSlot i (fun _ => settled turned)).modProg i (fun g =>
            { g with clip := none, pending := .empty })).post .maint .programmeChanged none (some i) none none)) ∧
        (∀ c d b, x.kind = some .programme → (s.progAt i).pending = .clip d → i < 4 → x.clip = some c → c < 128 →
          d < 128 → c ≠ d → (s.clipAt d).body = some b →
          let counted :=
            if (s.clipAt c).state = .retiring ∧ (s.clipAt c).use ≤ 1 then
              (base.modClip c (fun _ => { state := .empty, body := none, use := 0, fenced := false })).post .maint
                .clipFreed none (some c) none none
            else base.modClip c (fun e => { e with use := e.use - 1 })
          run = .next ((((counted.modClip d (fun e => { e with use := e.use + 1 })).modSlot i (fun _ =>
            settled { filled with clip := some d, addr := b.start, left := b.length })).modProg i (fun g =>
              { g with clip := some d, pending := .empty })).post .maint .programmeChanged none (some i) none
                (some d)))))

/-- The store operations: the checks of R142 in their order, and an accepted one becomes the operation in flight and
fences every entry that overlaps its range; a save carries the directory image as it stands (R142, R148, R149). -/
def Obligations.StoreOperationsAreAccepted : Prop :=
  ∀ (st : Station) (n a m : Nat) (bytes : List Byte) (s : State), s.heeds st .maint → n < 65536 → a < 16777216 →
    m < 256 → bytes.length = m → m ≤ 35 →
    let erase := exec (.storeErase st [toByte (n / 256), toByte n]) s
    let write := exec (.storeWrite st ([toByte (a / 65536), toByte (a / 256), toByte a, toByte m] ++ bytes)) s
    let save := exec (.saveDirectory st []) s
    let meets (e : Clip) (start size : Nat) : Bool :=
      match e.body with
      | some b => decide (b.start < start + size ∧ start < b.start + b.length)
      | none => false
    let held (start size : Nat) := ∃ c, c < 128 ∧ meets (s.clipAt c) start size = true ∧
      (0 < (s.clipAt c).use ∨ ∃ k, k < 4 ∧ ((s.progAt k).clip = some c ∨ (s.progAt k).pending = .clip c))
    let badWrite := m = 0 ∨ 32 < m ∨ a < 4096 ∨ 256 < a % 256 + m
    let flies (r : Host.Outcome State Fault Refusal) (code : Byte) (k : OpKind) (start size : Nat) (d : List Byte) :=
      ∃ t, r = .next t ∧
        t.store = { s.accepted.store with
          op := some { kind := k, start := start, size := size, data := d, step := 0, phase := .notStarted, runTime := 0,
                       clock := 0 } } ∧
        (∀ c, c < 128 →
          t.clipAt c = { s.clipAt c with fenced := (s.clipAt c).fenced || meets (s.clipAt c) start size }) ∧
        t = { s.accepted.owe st code { status := .taken } with store := t.store, clip := t.clip }
    (n = 0 ∨ 4095 < n → erase = s.refuses st 0x50 .range) ∧
    (badWrite → write = s.refuses st 0x51 .range) ∧
    (s.store.op ≠ none →
      (1 ≤ n → n ≤ 4095 → erase = s.refuses st 0x50 .busy) ∧ (¬ badWrite → write = s.refuses st 0x51 .busy) ∧
      save = s.refuses st 0x53 .busy) ∧
    (s.store.op = none →
      (1 ≤ n → n ≤ 4095 →
        (held (4096 * n) 4096 → erase = s.refuses st 0x50 .inUse) ∧
        (¬ held (4096 * n) 4096 → flies erase 0x50 .erase (4096 * n) 4096 [])) ∧
      (¬ badWrite →
        (held a m → write = s.refuses st 0x51 .inUse) ∧ (¬ held a m → flies write 0x51 .write a m bytes)) ∧
      flies save 0x53 .save 0 4096 s.directoryImage)

/-- The steps of the operation in flight: a step starts on a link left free, the store's ready sends its erase or its page
program, and its end goes on to a save's next step or ends the operation with STORE_DONE, OK or TIMEOUT; a suspended
erase is resumed when nothing asks. An ended operation lifts its fences, is removed, and reports to MAINT (R142 to R146,
R149). That ERASE_RESUME comes though the suspend is not yet answered is log entry 20, and that an end lifts the fences of all
128 entries is log entry 31. -/
def Obligations.OperationStepsRunInOrder : Prop :=
  ∀ (s : State) (o : Operation), s.store.op = some o → StoreLinkLaw s →
    let u := s.store
    let asks (i : Nat) := ((s.slotAt i).state = .priming ∨ (s.slotAt i).state = .playing ∨
      (s.slotAt i).state = .stopping) ∧ (s.slotAt i).buffer.length ≤ 192 ∧ 0 < (s.slotAt i).left
    let quiet := u.read = none ∧ ∀ j, j < 24 → ¬ asks j
    let moved (f : Store → Store) : Host.Outcome State Fault Refusal := .next { s with store := f u }
    let erases := o.kind = .erase ∨ (o.kind = .save ∧ o.step = 0)
    let page : StoreRequest :=
      match o.kind with
      | .save => .program (256 * (o.step - 1)) ((o.data.drop (256 * (o.step - 1))).take 256)
      | _ => .program o.start o.data
    let gone (a : LinkActivity) : LinkActivity := if a = .fetch ∨ a = .read then a else .idle
    let ends (r : Host.Outcome State Fault Refusal) (why : Cause) :=
      ∃ t, r = .next t ∧ t.store = { u with op := none, activity := gone u.activity } ∧
        (∀ c, c < 128 → t.clipAt c = { s.clipAt c with fenced := false }) ∧
        t.maintQ = s.maintQ.push
          { kind := .storeDone, position := none,
            subject := some (match o.kind with
              | .erase => 0
              | .write => 1
              | .save => 2)
            cause := some why
            value := some (match o.kind with
              | .erase => o.start / 4096
              | .write => o.start
              | .save => 0)
            stamp := s.tmn.blockCount } s.resetHeld ∧
        t = { s with store := t.store, clip := t.clip, maintQ := t.maintQ }
    let passes (r : Host.Outcome State Fault Refusal) :=
      (o.kind = .save → o.step < 7 →
        r = moved (fun u => { u with activity := gone u.activity,
                                     op := some { o with step := o.step + 1, phase := .notStarted } })) ∧
      (o.kind ≠ .save ∨ 7 ≤ o.step → ends r .ok)
    (o.phase = .notStarted → u.activity = .idle → quiet →
      exec .operationStepStart s = moved (fun u => { u with op := some { o with phase := .waitReady } })) ∧
    (o.phase ≠ .notStarted ∨ u.activity ≠ .idle ∨ ¬ quiet → exec .operationStepStart s = .next s) ∧
    (o.phase = .waitReady →
      (erases → exec .stepStoreReady s =
        moved (fun u => { u with activity := .eraseRunning, request := some (.erase (o.start / 4096)),
                                 op := some { o with phase := .erasing, runTime := 0, clock := 0 } })) ∧
      (¬ erases → exec .stepStoreReady s =
        moved (fun u => { u with activity := .program, request := some page,
                                 op := some { o with phase := .programming, clock := 0 } }))) ∧
    (o.phase = .erasing → passes (exec .eraseDone s) ∧ ends (exec .eraseTimeout s) .timeout) ∧
    (o.phase = .suspending → passes (exec .eraseDone s) ∧ ends (exec .suspendTimeout s) .timeout) ∧
    (o.phase = .programming → passes (exec .programDone s) ∧ ends (exec .programTimeout s) .timeout) ∧
    (u.activity = .eraseSuspended → quiet →
      exec .eraseResume s =
        moved (fun u => { u with activity := .eraseRunning, request := some .resume,
                                 op := some { o with phase := .erasing } })) ∧
    (u.activity ≠ .eraseSuspended ∨ ¬ quiet → exec .eraseResume s = .next s)

/-- STORE_READ becomes the pending read and its reply waits for the outcome; it is served on a free link, over a running
erase with suspend; it is answered DONE with its bytes, or BUSY when it is abandoned; and then the link is free again,
or at a paused erase (R147, R189). That a step which waits for the store keeps a read from the link is log entry 19, that a
completion of another length changes nothing log entry 6, and that the read is recorded at its completion log entry 32. -/
def Obligations.ReadsAreServedAndAnswered : Prop :=
  ∀ (st : Station) (a n : Nat) (bytes : List Byte) (s : State), a < 16777216 → n < 256 →
    let u := s.store
    let run := exec (.storeRead st [toByte (a / 65536), toByte (a / 256), toByte a, toByte n]) s
    let paused := s.phase = some .suspending ∨ s.phase = some .suspended
    let answered (stat : Status) (d : List Byte) (q : Port) : Port :=
      { q with owed := q.owed.map (fun o =>
          if o.waiting = true then { o with status := stat, data := d, waiting := false, clock := 0 } else o) }
    (s.heeds st .maint →
      (n = 0 ∨ 32 < n ∨ 16777216 < a + n → run = s.refuses st 0x52 .range) ∧
      (1 ≤ n → n ≤ 32 → a + n ≤ 16777216 →
        (∀ o, u.op = some o → o.kind ≠ .erase → run = s.refuses st 0x52 .busy) ∧
        ((∀ o, u.op = some o → o.kind = .erase) →
          run = .next ((s.accepted.modStore (fun u =>
            { u with read := some { addr := a, count := n, holding := false, clock := 0 } })).owe st 0x52
              { status := .done, waiting := true })))) ∧
    (∀ r, u.read = some r →
      (r.holding = false → u.activity = .idle ∨ u.activity = .eraseRunning ∨ u.activity = .eraseSuspended →
        s.phase ≠ some .waitReady →
        exec .storeReadServe s =
          .next { s with store :=
            { u with
              activity := .read
              read := some { r with holding := true }
              op := if u.activity = .eraseRunning then u.op.map (fun o => { o with phase := .suspending, clock := 0 })
                else u.op
              request := if u.activity = .eraseRunning ∧ u.op.isSome then some .suspend else u.request } }) ∧
      (r.holding = true ∨ u.activity = .fetch ∨ u.activity = .read ∨ u.activity = .program ∨
        s.phase = some .waitReady → exec .storeReadServe s = .next s) ∧
      (r.holding = true → bytes.length = r.count →
        exec (.storeReadComplete bytes) s =
          .next { s with
            store :=
              { u with
                read := none
                activity := if paused then .eraseSuspended else .idle
                op := u.op.map (fun o => if o.phase = .suspending then { o with phase := .suspended } else o)
                request := some (.read r.addr r.count) }
            port := answered .done bytes s.port }) ∧
      (r.holding = false ∨ bytes.length ≠ r.count → exec (.storeReadComplete bytes) s = .next s) ∧
      exec .storeReadAbandon s =
        .next { s with
          store :=
            { u with
              read := none
              activity := if r.holding = true then (if paused then .eraseSuspended else .idle) else u.activity }
          port := answered .busy [] s.port }) ∧
    (u.read = none → exec .storeReadServe s = .next s ∧ exec .storeReadAbandon s = .next s ∧
      exec (.storeReadComplete bytes) s = .next s)

/-- What SAVE_DIRECTORY forms, the start-up load takes in again: exactly the ACTIVE entries with their fields, and each
programme on the clip it was to play next unless a lower-numbered programme has the same one; no entry is skipped, and
each role gets STARTED with OK and 0 (R150, R151, R152, R197, Table 12-7). -/
def Obligations.SavedDirectoriesAreLoadedAgain : Prop :=
  ∀ s u : State, CatalogueLaw s →
    (u.store.startup.map (·.phase) = some .abandoned ∨ u.store.startup.map (·.phase) = some .reading) →
    (∀ c, c < 128 → u.clipAt c = { state := .empty, body := none, use := 0, fenced := false }) →
    (∀ k, k < 4 → (u.progAt k).clip = none ∧ (u.progAt k).pending = .empty) →
    let next (k : Nat) : Option Nat :=
      match (s.progAt k).pending with
      | .clip c => some c
      | .none => none
      | .empty => (s.progAt k).clip
    let started (q : NoticeQueue) :=
      q.push { kind := .started, position := none, subject := none, cause := some .ok, value := some 0,
               stamp := u.tmn.blockCount } u.resetHeld
    s.directoryImage.length = 1544 ∧
    ∃ t, exec (.startupLoadEnd s.directoryImage) u = .next t ∧
      (∀ c, c < 128 → t.clipAt c =
        if (s.clipAt c).state = .active then { s.clipAt c with use := 0, fenced := false }
        else { state := .empty, body := none, use := 0, fenced := false }) ∧
      (∀ k, k < 4 →
        t.progAt k = { u.progAt k with clip := (t.progAt k).clip } ∧
        ∀ c, (t.progAt k).clip = some c ↔ next k = some c ∧ ∀ j, j < k → next j ≠ some c) ∧
      t = { u with clip := t.clip, prog := t.prog, mode := .ready,
                   store := { u.store with startup := none, request := t.store.request },
                   callQ := started u.callQ, floorQ := started u.floorQ, maintQ := started u.maintQ }

/-- The start-up load: the store's first ready sends abandon, its second begins the reading, and every wait and read has its
own limit; a store that stays busy ends the load with NO_STORE, and a directory whose header fails a check ends it with BAD,
each with an unchanged catalogue; a valid one ends it with OK: the entries are taken in place by place, one with a field out
of range or a clip id already taken in is skipped and counted, and a programme is bound by the first entry taken in that names
it (R151, R152). The part is READY and each role gets STARTED (R197). A part that is not in that phase of the load is not
changed (log entry 6); that the whole directory comes with one event, and when each wait and read ends, is the model's (log
entries 9 and 30). -/
def Obligations.StartUpLoadsEndInReady : Prop :=
  ∀ (dir : List Byte) (s : State),
    let phase := s.store.startup.map (·.phase)
    let loading := phase = some .abandoned ∨ phase = some .reading
    let at1 (o : Nat) : Nat := (dir.getD o 0).toNat
    let at3 (o : Nat) : Nat := 65536 * at1 o + 256 * at1 (o + 1) + at1 (o + 2)
    let count := 256 * at1 4 + at1 5
    let signed := dir.take 4 = [0x54, 0x47, 0x44, 0x52]
    let valid := signed ∧ count ≤ 128 ∧
      (((dir.drop 8).take (12 * count)).map (·.toNat)).sum % 65536 = 256 * at1 6 + at1 7
    let moved (x : StartupPhase) (r : Option StoreRequest) : Host.Outcome State Fault Refusal :=
      .next { s with store := { s.store with startup := some { phase := x, clock := 0 }, request := r } }
    let ended (why : Cause) (skipped : Nat) (r : Option StoreRequest) : State :=
      let n : Notice := { kind := .started, position := none, subject := none, cause := some why, value := some skipped,
                          stamp := s.tmn.blockCount }
      { s with mode := .ready, store := { s.store with startup := none, request := r },
               callQ := s.callQ.push n s.resetHeld, floorQ := s.floorQ.push n s.resetHeld,
               maintQ := s.maintQ.push n s.resetHeld }
    let asked : StoreRequest := if signed ∧ 0 < count ∧ count ≤ 128 then .read 8 (12 * count) else .read 0 8
    let place (i : Nat) : Nat := 8 + 12 * i
    let fits (i : Nat) : Bool :=
      let o := place i
      at1 o < 128 && at1 (o + 1) ≤ 2 && at3 (o + 3) % 64 == 0 && 4096 ≤ at3 (o + 3) && 1 ≤ at3 (o + 6) &&
        at3 (o + 3) + at3 (o + 6) ≤ 16777216 && (at1 (o + 1) != 0 || at3 (o + 9) < at3 (o + 6)) &&
        (at1 (o + 2) == 255 || (at1 (o + 2) ≤ 3 && at1 (o + 1) == 0))
    let taken (i : Nat) : Bool :=
      fits i && (List.range i).all (fun j => !(fits j && at1 (place j) == at1 (place i)))
    let places := List.range count
    (phase = some .waitReady → exec .startupStoreReady s = moved .abandoned (some .abandon)) ∧
    (phase = some .abandoned → exec .startupStoreReady s = moved .reading (some (.read 0 8))) ∧
    (phase = some .reading → exec .startupStoreReady s = moved .reading s.store.request) ∧
    (phase = none → exec .startupStoreReady s = .next s ∧ exec .startupNoStore s = .next s) ∧
    (phase ≠ none → exec .startupNoStore s = .next (ended .noStore 0 s.store.request)) ∧
    (dir.length ≠ 1544 ∨ ¬ loading → exec (.startupLoadEnd dir) s = .next s) ∧
    (dir.length = 1544 → loading →
      (¬ valid → exec (.startupLoadEnd dir) s = .next (ended .bad 0 (some asked))) ∧
      (valid → (∀ c, c < 128 → s.clipAt c = { state := .empty, body := none, use := 0, fenced := false }) →
        (∀ k, k < 4 → (s.progAt k).clip = none ∧ (s.progAt k).pending = .empty) →
        ∃ t, exec (.startupLoadEnd dir) s = .next t ∧
          (∀ c, c < 128 → t.clipAt c =
            match places.find? (fun i => taken i && at1 (place i) == c) with
            | some i =>
              let o := place i
              { state := .active
                body := some { cls := if at1 (o + 1) = 0 then .music else if at1 (o + 1) = 1 then .whisper else .caller
                               start := at3 (o + 3), length := at3 (o + 6)
                               loop := if at1 (o + 1) = 0 then some (at3 (o + 9)) else none }
                use := 0
                fenced := false }
            | none => { state := .empty, body := none, use := 0, fenced := false }) ∧
          (∀ k, k < 4 → t.progAt k =
            { s.progAt k with
              clip := (places.find? (fun i => taken i && at1 (place i + 2) == k)).map (fun i => at1 (place i)) }) ∧
          t = { ended .ok (count - (places.filter taken).length) (some asked) with clip := t.clip, prog := t.prog }))

/-! ### Timing, the highway and the headset words (chapters 9 and 10) -/

/-- What a sync does in each timing state, and what the sync tick counter's limit does: acquisition with its window, the
lock at the 16th sync with or without a boundary, the accepted window in LOCKED, the silent fall back, and the loss
(R173 to R178, R183). A boundary is marked for the FRAME_BOUNDARY that follows, and a block that is complete at it ends first,
with an expiry that falls at it (log entries 12 and 16, and BlockEndsMeasureAndSlew). A sync at a count of 2112, where the
fall back or the loss falls due at the same tick, is judged as one outside the windows (log entry 34). -/
def Obligations.SyncsMoveTheTimingState : Prop :=
  ∀ (rx : Tab 32 Byte) (s : State),
    let t := s.tmn
    let moved (x : Timing) : Host.Outcome State Fault Refusal := .next { s with tmn := x }
    let told (k : NoticeKind) (x : Timing) : Host.Outcome State Fault Refusal :=
      let n : Notice := { kind := k, position := none, subject := none, cause := none, value := none,
                          stamp := t.blockCount }
      .next { s with tmn := x, callQ := s.callQ.push n s.resetHeld, maintQ := s.maintQ.push n s.resetHeld }
    let sync := exec (.lineSync rx) s
    (t.force = true → sync = .next s) ∧
    (t.force = false → t.state = .freeRun → sync = moved { t with state := .acquiring, count := 1, syncTicks := 0 }) ∧
    (t.force = false → t.state = .acquiring → t.syncTicks < 2044 ∨ 2052 < t.syncTicks →
      sync = moved { t with count := 1, syncTicks := 0 }) ∧
    (t.force = false → t.state = .acquiring → 2044 ≤ t.syncTicks → t.syncTicks ≤ 2052 →
      (t.count < 15 → sync = moved { t with count := t.count + 1, syncTicks := 0 }) ∧
      (15 ≤ t.count →
        let locked : Timing := { t with state := .locked, count := 16, syncTicks := 0, running := false }
        (t.frameTimer < 1024 → sync = told .clockLocked locked) ∧
        (1024 ≤ t.frameTimer → t.frames < 40 →
          sync = told .clockLocked { locked with frameTimer := 0, boundary := some (.line rx) }) ∧
        (1024 ≤ t.frameTimer → 40 ≤ t.frames → sync = execAll [.blockBoundary, .lineSync rx] s))) ∧
    (t.force = false → t.state = .locked →
      (t.syncTicks < 2044 ∨ 2111 < t.syncTicks → sync = .next s) ∧
      (2044 ≤ t.syncTicks → t.syncTicks ≤ 2111 →
        (t.frames < 40 → sync = moved { t with syncTicks := 0, frameTimer := 0, boundary := some (.line rx) }) ∧
        (40 ≤ t.frames → sync = execAll [.blockBoundary, .lineSync rx] s))) ∧
    (t.state = .acquiring →
      exec .acquisitionTimeout s = moved { t with state := .freeRun, count := 0, syncTicks := 0 }) ∧
    (t.state ≠ .acquiring → exec .acquisitionTimeout s = .next s) ∧
    (t.state = .locked →
      (t.frames < 40 → exec .clockFail s =
        told .clockFail { t with state := .freeRun, count := 0, syncTicks := 0, failFlag := true, running := true,
                                 elapsed := if t.running then t.elapsed else 0, frameTimer := 0,
                                 boundary := some .internal }) ∧
      (40 ≤ t.frames → exec .clockFail s = execAll [.blockBoundary, .clockFail] s)) ∧
    (t.state ≠ .locked → exec .clockFail s = .next s)

/-- SET_GRACE stores the period, 255 for a greater one with the clamped mark, and a running timer that is already at the
new limit expires at once; FORCE_CLOCK_FAIL sets the force flag; ACK_CLOCK_FAIL clears a set flag, stops the timer and
clears its count, in STARTING too; the first two are of the MAINT role, the last of CALL and MAINT (R179, R180, and the
force flag's own event of R177). -/
def Obligations.GraceForceAndAcknowledge : Prop :=
  ∀ (st : Station) (g f : Nat) (s : State), g < 65536 → f < 256 →
    (s.heeds st .maint →
      let stored := s.accepted.modTmn (fun t => { t with grace := min 255 g })
      let reply : Answer := { status := .done, clamped := decide (255 < g) }
      (s.tmn.running = false ∨ g = 0 ∨ s.tmn.elapsed < 20 * min 255 g →
        exec (.setGrace st [toByte (g / 256), toByte g]) s = .next (stored.owe st 0x60 reply)) ∧
      (s.tmn.running = true → 0 < g → 20 * min 255 g ≤ s.tmn.elapsed →
        ∃ t, exec .graceTimerExpiry stored = .next t ∧
          exec (.setGrace st [toByte (g / 256), toByte g]) s = .next (t.owe st 0x60 reply)) ∧
      (1 < f → exec (.forceClockFail st [toByte f]) s = s.refuses st 0x61 .range) ∧
      (f ≤ 1 → exec (.forceClockFail st [toByte f]) s =
        .next ((s.accepted.modTmn (fun t => { t with force := f == 1 })).owe st 0x61 { status := .done }))) ∧
    (∀ r ps, stationRole st = some r → r ≠ .maint →
      exec (.setGrace st ps) s = s.refuses st 0x60 .role ∧ exec (.forceClockFail st ps) s = s.refuses st 0x61 .role) ∧
    (∀ ps, stationRole st = some .floor → exec (.ackClockFail st ps) s = s.refuses st 0x62 .role) ∧
    (∀ r, stationRole st = some r → r ≠ .floor →
      (s.tmn.failFlag = true →
        exec (.ackClockFail st []) s =
          .next ((s.accepted.modTmn (fun t => { t with failFlag := false, running := false, elapsed := 0 })).owe st 0x62
            { status := .done })) ∧
      (s.tmn.failFlag = false → exec (.ackClockFail st []) s = .next (s.accepted.owe st 0x62 { status := .done })))

/-- What goes out with a frame: in a line frame the byte of each CONNECTED or HELD position's trunk-send sample on its send
timeslot, and on no other timeslot anything; outside line frames nothing; the drive set either way; and to each headset
the earpiece sample while its link is UP, the mute lamp in every link state, and even parity. The reference of the
frame joins the history (R59, R155, R167, R169, R196). -/
def Obligations.FramesSendBytesAndWords : Prop :=
  ∀ s : State, RecordLaw s → s.tmn.state ≠ .locked ∨ s.tmn.boundary ≠ none → 16 ≤ s.words → s.tmn.frames < 40 →
    ∃ t, exec .frameBoundary s = .next t ∧
      (∀ rx, s.tmn.boundary = some (.line rx) → t.hwy.rx = some rx) ∧
      (s.tmn.boundary = none ∨ s.tmn.boundary = some .internal → t.hwy.rx = none) ∧
      (∀ ts, ts ∈ t.hwy.drive ↔ ∃ p, p < 16 ∧ (s.posAt p).binding.map (·.tx) = some ts) ∧
      (∀ ts, ts < 32 →
        (t.hwy.rx = none ∨ s.resetHeld = true → tget t.hwy.tx ts = none) ∧
        ((∀ p, p < 16 → (s.posAt p).binding.map (·.tx) ≠ some ts) → tget t.hwy.tx ts = none) ∧
        (∀ p, SendLaw s → t.hwy.rx ≠ none → s.resetHeld = false → p < 16 →
          (s.posAt p).binding.map (·.tx) = some ts →
          tget t.hwy.tx ts = (t.mixAt p).t.map lawEncode ∧ tget t.hwy.tx ts ≠ none)) ∧
      ∀ p, p < 16 →
        let w := (t.linkAt p).outWord
        t.linkAt p = { s.linkAt p with outWord := w } ∧
        w.extractLsb' 2 16 = BitVec.ofInt 16 (if (s.linkAt p).state = .up then (t.mixAt p).e else 0) ∧
        w.getLsbD 1 = (s.posAt p).effMute ∧
        ((List.range 18).filter (fun i => w.getLsbD i)).length % 2 = 0 ∧
        t.ecAt p = { s.ecAt p with
          history := (if (s.linkAt p).state = .up then (t.mixAt p).x else 0) :: (s.ecAt p).history.take 255
          gone := (s.ecAt p).history.getD 255 0 }

/-! ### Reads and notices (chapters 11 and 12) -/

/-- The READ commands report and change nothing, in STARTING and READY and for every role, with RANGE above the last
number and the records of section 12.3, field by field at their offsets, each named value numbered in the order of its table,
an absent field with every bit 1; FETCH_NOTICES returns up to max records of the sender's own queue, oldest first, each of 9
bytes (Table 12-2), removes them, and reports and clears the overflow flag (R92, R136, R192, R194, R195, R198). Beside the rules
the model takes: which mark of the drive set is which bit of a byte (log entry 28), what stands in fields whose presence the
tables leave open (log entry 29), a next fetch address past the store's end (log entry 43), and the order of the canceller
states (log entry 44). -/
def Obligations.ReadsReportAndFetchesRemove : Prop :=
  ∀ (st : Station) (n : Nat) (r : Role) (s : State), stationRole st = some r → n < 256 →
    let tells (code : Byte) (run : Host.Outcome State Fault Refusal) (size : Nat) (fs : List Field) : Prop :=
      ∃ d, run = .next (s.accepted.owe st code { status := .done, data := d }) ∧ HoldsFields d size fs
    let flag (b : Bool) : Nat := if b then 1 else 0
    let opt (o : Option Nat) : Nat := absentOr 1 o
    let streamStates : List StreamState := [.idle, .priming, .playing, .ending, .stopping]
    let causes : List Cause := [.completed, .interrupted, .flushed, .stopped, .released, .noListeners, .dropped,
      .unavailable, .supervisorCall, .callEnd, .lineLoss, .ok, .timeout, .bad, .noStore]
    let kinds : List NoticeKind := [.callReleased, .muteEffective, .buttonMute, .headsetUp, .headsetDown, .promptEnded,
      .streamUnderrun, .clockFail, .clockLocked, .started, .monitorEnded, .whisperEnded, .whisperFlushed, .tapShortfall,
      .tapGranted, .programmeEnded, .programmeChanged, .clipFreed, .storeDone]
    let position : List Field :=
      let x := s.posAt n
      let l := s.linkAt n
      let c := s.ecAt n
      let v := s.levAt n
      let q := s.queueAt n
      let stream (k : StreamKind) : List Nat :=
        match s.streamOf k n with
        | some i => [i, streamStates.idxOf (s.slotAt i).state]
        | none => [255, 255]
      bytesFrom 0
        [[CallState.free, .connected, .held].idxOf x.call, opt (x.binding.map (·.rx)), opt (x.binding.map (·.tx)),
          opt x.hold, flag x.cmdMute, flag x.btnMute, flag x.effMute, x.ramp,
          opt (x.relation.map (fun r => [RelationForm.monitoredBy, .monitoring].idxOf r.form)),
          opt (x.relation.map (·.other)),
          opt (x.relation.map (fun r => [MonitorMode.listen, .whisper, .barge].idxOf r.mode))] ++
      [⟨11, 2, absentOr 2 (x.relation.bind (·.gain))⟩, ⟨13, 2, x.rxGain⟩, ⟨15, 2, x.txGain⟩, ⟨17, 2, x.sidetone⟩] ++
      bytesFrom 19 [[LinkState.down, .probing, .up].idxOf l.state, l.badRun, flag l.stable,
        [CancellerState.off, .adapting, .doubleTalk, .quietRef, .frozen].idxOf c.state] ++
      [⟨23, 2, 32 * (s.segsOf n).length⟩] ++
      bytesFrom 25 [c.hangover, c.step, c.shift, flag c.freeze, c.request] ++
      [⟨30, 2, v.level⟩, ⟨32, 2, v.floor⟩] ++
      bytesFrom 34 [flag v.raw, v.hang, flag v.voice, flag v.bleed, v.atten, v.guard, opt v.neighbours[0]?,
        opt v.neighbours[1]?, opt v.neighbours[2]?, opt v.neighbours[3]?, q.length] ++
      (List.range 4).flatMap (fun j =>
        [⟨45 + 4 * j, 1, opt (q[j]?.map (·.clip))⟩, ⟨46 + 4 * j, 2, absentOr 2 (q[j]?.map (·.gain))⟩,
          ⟨48 + 4 * j, 1, opt (q[j]?.map (fun it => [Admission.append, .interrupt].idxOf it.admission))⟩]) ++
      bytesFrom 61 ([opt (if n ∈ s.waitList then some (s.waitList.idxOf n) else none)] ++ stream .whisper ++
        stream .caller)
    let stream : List Field :=
      let x := s.slotAt n
      bytesFrom 0 [streamStates.idxOf x.state,
        opt (x.kind.map (fun k => [StreamKind.programme, .whisper, .caller].idxOf k)), opt x.target, opt x.clip] ++
      [⟨4, 3, x.addr⟩, ⟨7, 3, x.left⟩, ⟨10, 2, x.buffer.length⟩, ⟨14, 2, absentOr 2 x.gain⟩] ++
      bytesFrom 12 [opt x.repeats, opt (x.hears.map flag)] ++
      bytesFrom 16 [x.ramp, opt (x.dir.map (fun d => [RampDir.falling, .rising].idxOf d)), flag x.begun,
        opt (x.cause.map (fun c => causes.idxOf c)), flag x.underrun,
        opt (if n < 4 then (match (s.progAt n).pending with
          | .clip c => some c
          | .empty => none
          | .none => none) else none)]
    let clip : List Field :=
      let e := s.clipAt n
      let mask (f : Programme → Bool) : Nat := ((List.range 4).map (fun k => if f (s.progAt k) then 2 ^ k else 0)).sum
      bytesFrom 0 [[ClipState.empty, .active, .retiring].idxOf e.state,
        opt (e.body.map (fun b => [ClipClass.music, .whisper, .caller].idxOf b.cls))] ++
      [⟨2, 3, absentOr 3 (e.body.map (·.start))⟩, ⟨5, 3, absentOr 3 (e.body.map (·.length))⟩,
        ⟨8, 3, absentOr 3 (e.body.bind (·.loop))⟩] ++
      bytesFrom 11 [e.use, flag e.fenced, mask (fun g => g.clip == some n), mask (fun g => g.pending == .clip n)]
    let timing : List Field :=
      let t := s.tmn
      bytesFrom 0 [[TimingState.freeRun, .acquiring, .locked].idxOf t.state, t.count, flag t.failFlag, flag t.force,
        t.grace, flag t.running] ++
      [⟨6, 2, t.elapsed⟩, ⟨8, 2, t.blockCount⟩] ++
      bytesFrom 10 ((List.range 4).map (fun b =>
        ((List.range 8).map (fun j => if 8 * b + j ∈ s.hwy.drive then 2 ^ j else 0)).sum))
    let pool : List Field :=
      bytesFrom 0 ([((List.range 64).filter (fun g => (s.segAt g).owner.isNone)).length, s.pool.short.length] ++
        (List.range 16).map (fun j => opt s.pool.short[j]?)) ++
      (List.range 16).flatMap (fun p => bytesFrom (18 + 10 * p)
        ([(s.ecAt p).request, (s.segsOf p).length] ++ (List.range 8).map (fun j => opt (s.segsOf p)[j]?)))
    let note (j : Nat) (m : Notice) : List Field :=
      bytesFrom (2 + 9 * j) [kinds.idxOf m.kind, opt m.position, opt m.subject,
        opt (m.cause.map (fun c => causes.idxOf c))] ++
      [⟨6 + 9 * j, 3, absentOr 3 m.value⟩, ⟨9 + 9 * j, 2, m.stamp⟩]
    let q := s.noticesOf r
    let fetch := exec (.fetchNotices st [toByte n]) s
    (15 < n → exec (.readPosition st [toByte n]) s = s.refuses st 0x70 .range) ∧
    (n < 16 → tells 0x70 (exec (.readPosition st [toByte n]) s) 66 position) ∧
    (23 < n → exec (.readStream st [toByte n]) s = s.refuses st 0x71 .range) ∧
    (n < 24 → tells 0x71 (exec (.readStream st [toByte n]) s) 22 stream) ∧
    (127 < n → exec (.readClip st [toByte n]) s = s.refuses st 0x72 .range) ∧
    (n < 128 → tells 0x72 (exec (.readClip st [toByte n]) s) 15 clip) ∧
    tells 0x73 (exec (.readTiming st []) s) 14 timing ∧ tells 0x74 (exec (.readPool st []) s) 178 pool ∧
    (n = 0 ∨ 4 < n → fetch = s.refuses st 0x75 .range) ∧
    (1 ≤ n → n ≤ 4 →
      let k := min n q.records.length
      ∃ (t : State) (data : List Byte), fetch = .next (t.owe st 0x75 { status := .done, data := data }) ∧
        HoldsFields data (2 + 9 * k) (bytesFrom 0 [flag q.overflow, k] ++ ((q.records.take k).mapIdx note).flatten) ∧
        (t.noticesOf r).records = q.records.drop k ∧ (t.noticesOf r).overflow = false ∧
        (NoticeLaw s → ((t.noticesOf r).attention = true ↔ q.records.drop k ≠ [] ∧ s.resetHeld = false)) ∧
        (∀ other, other ≠ r → t.noticesOf other = s.noticesOf other) ∧
        t = { s.accepted with callQ := t.callQ, floorQ := t.floorQ, maintQ := t.maintQ })

/-! ### What every step keeps (KeptByStep) and what reset has

Each statement is over every state with the named laws, not only over the states of a run from reset. -/

/-- Every law of Safety.lean holds right after device reset, and no command waits. -/
def Obligations.ResetIsSound : Prop := Sound State.reset ∧ State.reset.pending = []

/-- Every step keeps the position records in their form: the effective mute, the ramp's range, the binding and the hold
programme exactly in their call states; and a programme's listener count is the number of positions held on it (R1, R18,
R19, R132). -/
def Obligations.RecordsAndListenersStayConsistent : Prop :=
  KeptByStep (fun _ => True) (fun s => MuteLaw s ∧ RecordLaw s ∧ ListenerLaw s)

/-- No two positions of the part are ever bound to the same send timeslot (R8). -/
def Obligations.SendTimeslotsStayDistinct : Prop := KeptByStep (fun _ => True) SendLaw

/-- Relations stay pairs of records that name each other, of a FREE supervisor and an agent in a call (R1, R23). -/
def Obligations.RelationsStayPaired : Prop := KeptByStep (fun _ => True) RelationLaw

/-- Whisper queues keep at most four items, and a FREE position has none (R33). -/
def Obligations.WhisperQueuesStayShort : Prop := KeptByStep (fun _ => True) WhisperLaw

/-- Slots keep their kinds and targets, a position has at most one stream of each kind, and no general slot is free while
a position waits for one (R117, R129, R130). -/
def Obligations.SlotsStayExclusive : Prop := KeptByStep (fun _ => True) SlotLaw

/-- The use counts stay the numbers of streams, bound clips stay ACTIVE MUSIC clips, and the fences stay exactly those of
the operation in flight, on entries neither in use nor bound (R113, R116, R132, R146, R148). -/
def Obligations.CatalogueStaysTrue : Prop := KeptByStep FetchLaw (fun s => CatalogueLaw s ∧ FenceLaw s)

/-- Every segment stays with one owner or free with zeros, and the shortfall list stays exactly the positions that are
short, with no segment free while it holds one; and the cancellers' fields and the coefficients stay in their ranges, 256
reference samples and 32 coefficients to a segment among them (R58, R59, R64, R67, R70, R80 to R82). -/
def Obligations.SegmentsStayAccountedFor : Prop :=
  KeptByStep (fun _ => True) (fun s => PoolLaw s ∧ ShortfallLaw s ∧ CancellerLaw s)

/-- The levels, the block energies, the adapting and presence counts and the level parameters stay in their ranges (Tables
6-1 and 6-2, R54), and so do the link records (Table 9-3). That each frame of a block has at most one word from a port rests on
log entry 15. -/
def Obligations.LevelsStayInRange : Prop := KeptByStep (fun _ => True) (fun s => LinkLaw s ∧ LevelLaw s ∧ TotalsLaw s)

/-- The notice queues stay within 32 records, and each attention line is asserted exactly while its queue holds one and
the reset pin is not held (R193, R195, R196). -/
def Obligations.AttentionFollowsTheQueues : Prop := KeptByStep (fun _ => True) NoticeLaw

/-- The Timing Monitor's fields stay together and in their ranges, the sync tick counter and the frame timer among them
(R173, R174, R178, R182, Table 10-2). -/
def Obligations.TimingStateStaysConsistent : Prop := KeptByStep (fun _ => True) TimingLaw

/-- The link activity stays what holds the link, a fetch stays that of the slot it was granted to, and no buffer holds
more than 256 samples (R117, R119, R139 to R145). -/
def Obligations.StoreLinkStaysConsistent : Prop := KeptByStep (fun _ => True) (fun s => StoreLinkLaw s ∧ FetchLaw s)
end

