-- ==== Sys2Proof/Laws/Tab.lean ====
section
/-! SUPPORT. The laws of tables: a reading after a write gives the value written at the written number, and every other
entry stands. -/

namespace Sys2Proof

variable {α : Type} [Inhabited α] {n : Nat}

/-- An entry inside the table is the entry of the vector. -/
theorem tget_eq (t : Tab n α) (i : Nat) (h : i < n) : tget t i = t[i] := by simp [tget, h]

/-- Outside the table the reading is the default. -/
theorem tget_out (t : Tab n α) (i : Nat) (h : n ≤ i) : tget t i = default := by
  have : t[i]? = none := by simp [h]
  simp [tget, this]

/-- What a write makes of every entry. -/
theorem tget_tset (t : Tab n α) (i j : Nat) (a : α) : tget (tset t i a) j = if i = j ∧ i < n then a else tget t j := by
  unfold tget tset
  rw [Vector.getElem?_setIfInBounds]
  by_cases h : i = j
  · subst h
    by_cases hn : i < n <;> simp [hn]
  · simp [h]

/-- What a change of one entry makes of every entry. -/
theorem tget_tmod (t : Tab n α) (i j : Nat) (f : α → α) :
    tget (tmod t i f) j = if i = j ∧ i < n then f (tget t i) else tget t j := tget_tset t i j _

/-- Two tables with the same entries are the same table. -/
theorem tab_ext (t u : Tab n α) (h : ∀ i, i < n → tget t i = tget u i) : t = u := by
  apply Vector.ext
  intro i hi
  have := h i hi
  rwa [tget_eq t i hi, tget_eq u i hi] at this

/-- Every entry of a table of equal entries. -/
theorem tget_replicate (i : Nat) (a : α) (h : i < n) : tget (Vector.replicate n a : Tab n α) i = a := by
  rw [tget_eq _ _ h]; simp

end Sys2Proof
end

