-- ==== Sys2Proof/Laws/State.lean ====
section
/-! SUPPORT. One lemma for each field of State and each named update of Machine/Ops.lean: what the update makes of the
field; then what it makes of the reading of one entry. All hold by unfolding the update. -/

namespace Sys2Proof.Machine

section
variable (s : State)


/-! ### modPos -/

@[simp] theorem State.modPos_pending (p : Nat) (f : Position → Position) : (s.modPos p f).pending = s.pending := rfl
@[simp] theorem State.modPos_mode (p : Nat) (f : Position → Position) : (s.modPos p f).mode = s.mode := rfl
@[simp] theorem State.modPos_resetHeld (p : Nat) (f : Position → Position) : (s.modPos p f).resetHeld = s.resetHeld := rfl
@[simp] theorem State.modPos_pos (p : Nat) (f : Position → Position) : (s.modPos p f).pos = tmod s.pos p f := rfl
@[simp] theorem State.modPos_link (p : Nat) (f : Position → Position) : (s.modPos p f).link = s.link := rfl
@[simp] theorem State.modPos_ec (p : Nat) (f : Position → Position) : (s.modPos p f).ec = s.ec := rfl
@[simp] theorem State.modPos_pool (p : Nat) (f : Position → Position) : (s.modPos p f).pool = s.pool := rfl
@[simp] theorem State.modPos_lev (p : Nat) (f : Position → Position) : (s.modPos p f).lev = s.lev := rfl
@[simp] theorem State.modPos_params (p : Nat) (f : Position → Position) : (s.modPos p f).params = s.params := rfl
@[simp] theorem State.modPos_mix (p : Nat) (f : Position → Position) : (s.modPos p f).mix = s.mix := rfl
@[simp] theorem State.modPos_clip (p : Nat) (f : Position → Position) : (s.modPos p f).clip = s.clip := rfl
@[simp] theorem State.modPos_slot (p : Nat) (f : Position → Position) : (s.modPos p f).slot = s.slot := rfl
@[simp] theorem State.modPos_prog (p : Nat) (f : Position → Position) : (s.modPos p f).prog = s.prog := rfl
@[simp] theorem State.modPos_queue (p : Nat) (f : Position → Position) : (s.modPos p f).queue = s.queue := rfl
@[simp] theorem State.modPos_waitList (p : Nat) (f : Position → Position) : (s.modPos p f).waitList = s.waitList := rfl
@[simp] theorem State.modPos_store (p : Nat) (f : Position → Position) : (s.modPos p f).store = s.store := rfl
@[simp] theorem State.modPos_tmn (p : Nat) (f : Position → Position) : (s.modPos p f).tmn = s.tmn := rfl
@[simp] theorem State.modPos_hwy (p : Nat) (f : Position → Position) : (s.modPos p f).hwy = s.hwy := rfl
@[simp] theorem State.modPos_words (p : Nat) (f : Position → Position) : (s.modPos p f).words = s.words := rfl
@[simp] theorem State.modPos_port (p : Nat) (f : Position → Position) : (s.modPos p f).port = s.port := rfl
@[simp] theorem State.modPos_callQ (p : Nat) (f : Position → Position) : (s.modPos p f).callQ = s.callQ := rfl
@[simp] theorem State.modPos_floorQ (p : Nat) (f : Position → Position) : (s.modPos p f).floorQ = s.floorQ := rfl
@[simp] theorem State.modPos_maintQ (p : Nat) (f : Position → Position) : (s.modPos p f).maintQ = s.maintQ := rfl
@[simp] theorem State.modPos_posAt (p : Nat) (f : Position → Position) (i : Nat) :
    (s.modPos p f).posAt i = if p = i ∧ p < 16 then f (s.posAt p) else s.posAt i := tget_tmod s.pos p i f
@[simp] theorem State.modPos_linkAt (p : Nat) (f : Position → Position) (i : Nat) : (s.modPos p f).linkAt i = s.linkAt i := rfl
@[simp] theorem State.modPos_ecAt (p : Nat) (f : Position → Position) (i : Nat) : (s.modPos p f).ecAt i = s.ecAt i := rfl
@[simp] theorem State.modPos_levAt (p : Nat) (f : Position → Position) (i : Nat) : (s.modPos p f).levAt i = s.levAt i := rfl
@[simp] theorem State.modPos_mixAt (p : Nat) (f : Position → Position) (i : Nat) : (s.modPos p f).mixAt i = s.mixAt i := rfl
@[simp] theorem State.modPos_clipAt (p : Nat) (f : Position → Position) (i : Nat) : (s.modPos p f).clipAt i = s.clipAt i := rfl
@[simp] theorem State.modPos_slotAt (p : Nat) (f : Position → Position) (i : Nat) : (s.modPos p f).slotAt i = s.slotAt i := rfl
@[simp] theorem State.modPos_progAt (p : Nat) (f : Position → Position) (i : Nat) : (s.modPos p f).progAt i = s.progAt i := rfl
@[simp] theorem State.modPos_queueAt (p : Nat) (f : Position → Position) (i : Nat) : (s.modPos p f).queueAt i = s.queueAt i := rfl
@[simp] theorem State.modPos_segsOf (p : Nat) (f : Position → Position) (i : Nat) : (s.modPos p f).segsOf i = s.segsOf i := rfl
@[simp] theorem State.modPos_segAt (p : Nat) (f : Position → Position) (i : Nat) : (s.modPos p f).segAt i = s.segAt i := rfl

/-! ### modLink -/

@[simp] theorem State.modLink_pending (p : Nat) (f : Link → Link) : (s.modLink p f).pending = s.pending := rfl
@[simp] theorem State.modLink_mode (p : Nat) (f : Link → Link) : (s.modLink p f).mode = s.mode := rfl
@[simp] theorem State.modLink_resetHeld (p : Nat) (f : Link → Link) : (s.modLink p f).resetHeld = s.resetHeld := rfl
@[simp] theorem State.modLink_pos (p : Nat) (f : Link → Link) : (s.modLink p f).pos = s.pos := rfl
@[simp] theorem State.modLink_link (p : Nat) (f : Link → Link) : (s.modLink p f).link = tmod s.link p f := rfl
@[simp] theorem State.modLink_ec (p : Nat) (f : Link → Link) : (s.modLink p f).ec = s.ec := rfl
@[simp] theorem State.modLink_pool (p : Nat) (f : Link → Link) : (s.modLink p f).pool = s.pool := rfl
@[simp] theorem State.modLink_lev (p : Nat) (f : Link → Link) : (s.modLink p f).lev = s.lev := rfl
@[simp] theorem State.modLink_params (p : Nat) (f : Link → Link) : (s.modLink p f).params = s.params := rfl
@[simp] theorem State.modLink_mix (p : Nat) (f : Link → Link) : (s.modLink p f).mix = s.mix := rfl
@[simp] theorem State.modLink_clip (p : Nat) (f : Link → Link) : (s.modLink p f).clip = s.clip := rfl
@[simp] theorem State.modLink_slot (p : Nat) (f : Link → Link) : (s.modLink p f).slot = s.slot := rfl
@[simp] theorem State.modLink_prog (p : Nat) (f : Link → Link) : (s.modLink p f).prog = s.prog := rfl
@[simp] theorem State.modLink_queue (p : Nat) (f : Link → Link) : (s.modLink p f).queue = s.queue := rfl
@[simp] theorem State.modLink_waitList (p : Nat) (f : Link → Link) : (s.modLink p f).waitList = s.waitList := rfl
@[simp] theorem State.modLink_store (p : Nat) (f : Link → Link) : (s.modLink p f).store = s.store := rfl
@[simp] theorem State.modLink_tmn (p : Nat) (f : Link → Link) : (s.modLink p f).tmn = s.tmn := rfl
@[simp] theorem State.modLink_hwy (p : Nat) (f : Link → Link) : (s.modLink p f).hwy = s.hwy := rfl
@[simp] theorem State.modLink_words (p : Nat) (f : Link → Link) : (s.modLink p f).words = s.words := rfl
@[simp] theorem State.modLink_port (p : Nat) (f : Link → Link) : (s.modLink p f).port = s.port := rfl
@[simp] theorem State.modLink_callQ (p : Nat) (f : Link → Link) : (s.modLink p f).callQ = s.callQ := rfl
@[simp] theorem State.modLink_floorQ (p : Nat) (f : Link → Link) : (s.modLink p f).floorQ = s.floorQ := rfl
@[simp] theorem State.modLink_maintQ (p : Nat) (f : Link → Link) : (s.modLink p f).maintQ = s.maintQ := rfl
@[simp] theorem State.modLink_posAt (p : Nat) (f : Link → Link) (i : Nat) : (s.modLink p f).posAt i = s.posAt i := rfl
@[simp] theorem State.modLink_linkAt (p : Nat) (f : Link → Link) (i : Nat) :
    (s.modLink p f).linkAt i = if p = i ∧ p < 16 then f (s.linkAt p) else s.linkAt i := tget_tmod s.link p i f
@[simp] theorem State.modLink_ecAt (p : Nat) (f : Link → Link) (i : Nat) : (s.modLink p f).ecAt i = s.ecAt i := rfl
@[simp] theorem State.modLink_levAt (p : Nat) (f : Link → Link) (i : Nat) : (s.modLink p f).levAt i = s.levAt i := rfl
@[simp] theorem State.modLink_mixAt (p : Nat) (f : Link → Link) (i : Nat) : (s.modLink p f).mixAt i = s.mixAt i := rfl
@[simp] theorem State.modLink_clipAt (p : Nat) (f : Link → Link) (i : Nat) : (s.modLink p f).clipAt i = s.clipAt i := rfl
@[simp] theorem State.modLink_slotAt (p : Nat) (f : Link → Link) (i : Nat) : (s.modLink p f).slotAt i = s.slotAt i := rfl
@[simp] theorem State.modLink_progAt (p : Nat) (f : Link → Link) (i : Nat) : (s.modLink p f).progAt i = s.progAt i := rfl
@[simp] theorem State.modLink_queueAt (p : Nat) (f : Link → Link) (i : Nat) : (s.modLink p f).queueAt i = s.queueAt i := rfl
@[simp] theorem State.modLink_segsOf (p : Nat) (f : Link → Link) (i : Nat) : (s.modLink p f).segsOf i = s.segsOf i := rfl
@[simp] theorem State.modLink_segAt (p : Nat) (f : Link → Link) (i : Nat) : (s.modLink p f).segAt i = s.segAt i := rfl

/-! ### modEc -/

@[simp] theorem State.modEc_pending (p : Nat) (f : Canceller → Canceller) : (s.modEc p f).pending = s.pending := rfl
@[simp] theorem State.modEc_mode (p : Nat) (f : Canceller → Canceller) : (s.modEc p f).mode = s.mode := rfl
@[simp] theorem State.modEc_resetHeld (p : Nat) (f : Canceller → Canceller) : (s.modEc p f).resetHeld = s.resetHeld := rfl
@[simp] theorem State.modEc_pos (p : Nat) (f : Canceller → Canceller) : (s.modEc p f).pos = s.pos := rfl
@[simp] theorem State.modEc_link (p : Nat) (f : Canceller → Canceller) : (s.modEc p f).link = s.link := rfl
@[simp] theorem State.modEc_ec (p : Nat) (f : Canceller → Canceller) : (s.modEc p f).ec = tmod s.ec p f := rfl
@[simp] theorem State.modEc_pool (p : Nat) (f : Canceller → Canceller) : (s.modEc p f).pool = s.pool := rfl
@[simp] theorem State.modEc_lev (p : Nat) (f : Canceller → Canceller) : (s.modEc p f).lev = s.lev := rfl
@[simp] theorem State.modEc_params (p : Nat) (f : Canceller → Canceller) : (s.modEc p f).params = s.params := rfl
@[simp] theorem State.modEc_mix (p : Nat) (f : Canceller → Canceller) : (s.modEc p f).mix = s.mix := rfl
@[simp] theorem State.modEc_clip (p : Nat) (f : Canceller → Canceller) : (s.modEc p f).clip = s.clip := rfl
@[simp] theorem State.modEc_slot (p : Nat) (f : Canceller → Canceller) : (s.modEc p f).slot = s.slot := rfl
@[simp] theorem State.modEc_prog (p : Nat) (f : Canceller → Canceller) : (s.modEc p f).prog = s.prog := rfl
@[simp] theorem State.modEc_queue (p : Nat) (f : Canceller → Canceller) : (s.modEc p f).queue = s.queue := rfl
@[simp] theorem State.modEc_waitList (p : Nat) (f : Canceller → Canceller) : (s.modEc p f).waitList = s.waitList := rfl
@[simp] theorem State.modEc_store (p : Nat) (f : Canceller → Canceller) : (s.modEc p f).store = s.store := rfl
@[simp] theorem State.modEc_tmn (p : Nat) (f : Canceller → Canceller) : (s.modEc p f).tmn = s.tmn := rfl
@[simp] theorem State.modEc_hwy (p : Nat) (f : Canceller → Canceller) : (s.modEc p f).hwy = s.hwy := rfl
@[simp] theorem State.modEc_words (p : Nat) (f : Canceller → Canceller) : (s.modEc p f).words = s.words := rfl
@[simp] theorem State.modEc_port (p : Nat) (f : Canceller → Canceller) : (s.modEc p f).port = s.port := rfl
@[simp] theorem State.modEc_callQ (p : Nat) (f : Canceller → Canceller) : (s.modEc p f).callQ = s.callQ := rfl
@[simp] theorem State.modEc_floorQ (p : Nat) (f : Canceller → Canceller) : (s.modEc p f).floorQ = s.floorQ := rfl
@[simp] theorem State.modEc_maintQ (p : Nat) (f : Canceller → Canceller) : (s.modEc p f).maintQ = s.maintQ := rfl
@[simp] theorem State.modEc_posAt (p : Nat) (f : Canceller → Canceller) (i : Nat) : (s.modEc p f).posAt i = s.posAt i := rfl
@[simp] theorem State.modEc_linkAt (p : Nat) (f : Canceller → Canceller) (i : Nat) : (s.modEc p f).linkAt i = s.linkAt i := rfl
@[simp] theorem State.modEc_ecAt (p : Nat) (f : Canceller → Canceller) (i : Nat) :
    (s.modEc p f).ecAt i = if p = i ∧ p < 16 then f (s.ecAt p) else s.ecAt i := tget_tmod s.ec p i f
@[simp] theorem State.modEc_levAt (p : Nat) (f : Canceller → Canceller) (i : Nat) : (s.modEc p f).levAt i = s.levAt i := rfl
@[simp] theorem State.modEc_mixAt (p : Nat) (f : Canceller → Canceller) (i : Nat) : (s.modEc p f).mixAt i = s.mixAt i := rfl
@[simp] theorem State.modEc_clipAt (p : Nat) (f : Canceller → Canceller) (i : Nat) : (s.modEc p f).clipAt i = s.clipAt i := rfl
@[simp] theorem State.modEc_slotAt (p : Nat) (f : Canceller → Canceller) (i : Nat) : (s.modEc p f).slotAt i = s.slotAt i := rfl
@[simp] theorem State.modEc_progAt (p : Nat) (f : Canceller → Canceller) (i : Nat) : (s.modEc p f).progAt i = s.progAt i := rfl
@[simp] theorem State.modEc_queueAt (p : Nat) (f : Canceller → Canceller) (i : Nat) : (s.modEc p f).queueAt i = s.queueAt i := rfl
@[simp] theorem State.modEc_segsOf (p : Nat) (f : Canceller → Canceller) (i : Nat) : (s.modEc p f).segsOf i = s.segsOf i := rfl
@[simp] theorem State.modEc_segAt (p : Nat) (f : Canceller → Canceller) (i : Nat) : (s.modEc p f).segAt i = s.segAt i := rfl

/-! ### modLev -/

@[simp] theorem State.modLev_pending (p : Nat) (f : Level → Level) : (s.modLev p f).pending = s.pending := rfl
@[simp] theorem State.modLev_mode (p : Nat) (f : Level → Level) : (s.modLev p f).mode = s.mode := rfl
@[simp] theorem State.modLev_resetHeld (p : Nat) (f : Level → Level) : (s.modLev p f).resetHeld = s.resetHeld := rfl
@[simp] theorem State.modLev_pos (p : Nat) (f : Level → Level) : (s.modLev p f).pos = s.pos := rfl
@[simp] theorem State.modLev_link (p : Nat) (f : Level → Level) : (s.modLev p f).link = s.link := rfl
@[simp] theorem State.modLev_ec (p : Nat) (f : Level → Level) : (s.modLev p f).ec = s.ec := rfl
@[simp] theorem State.modLev_pool (p : Nat) (f : Level → Level) : (s.modLev p f).pool = s.pool := rfl
@[simp] theorem State.modLev_lev (p : Nat) (f : Level → Level) : (s.modLev p f).lev = tmod s.lev p f := rfl
@[simp] theorem State.modLev_params (p : Nat) (f : Level → Level) : (s.modLev p f).params = s.params := rfl
@[simp] theorem State.modLev_mix (p : Nat) (f : Level → Level) : (s.modLev p f).mix = s.mix := rfl
@[simp] theorem State.modLev_clip (p : Nat) (f : Level → Level) : (s.modLev p f).clip = s.clip := rfl
@[simp] theorem State.modLev_slot (p : Nat) (f : Level → Level) : (s.modLev p f).slot = s.slot := rfl
@[simp] theorem State.modLev_prog (p : Nat) (f : Level → Level) : (s.modLev p f).prog = s.prog := rfl
@[simp] theorem State.modLev_queue (p : Nat) (f : Level → Level) : (s.modLev p f).queue = s.queue := rfl
@[simp] theorem State.modLev_waitList (p : Nat) (f : Level → Level) : (s.modLev p f).waitList = s.waitList := rfl
@[simp] theorem State.modLev_store (p : Nat) (f : Level → Level) : (s.modLev p f).store = s.store := rfl
@[simp] theorem State.modLev_tmn (p : Nat) (f : Level → Level) : (s.modLev p f).tmn = s.tmn := rfl
@[simp] theorem State.modLev_hwy (p : Nat) (f : Level → Level) : (s.modLev p f).hwy = s.hwy := rfl
@[simp] theorem State.modLev_words (p : Nat) (f : Level → Level) : (s.modLev p f).words = s.words := rfl
@[simp] theorem State.modLev_port (p : Nat) (f : Level → Level) : (s.modLev p f).port = s.port := rfl
@[simp] theorem State.modLev_callQ (p : Nat) (f : Level → Level) : (s.modLev p f).callQ = s.callQ := rfl
@[simp] theorem State.modLev_floorQ (p : Nat) (f : Level → Level) : (s.modLev p f).floorQ = s.floorQ := rfl
@[simp] theorem State.modLev_maintQ (p : Nat) (f : Level → Level) : (s.modLev p f).maintQ = s.maintQ := rfl
@[simp] theorem State.modLev_posAt (p : Nat) (f : Level → Level) (i : Nat) : (s.modLev p f).posAt i = s.posAt i := rfl
@[simp] theorem State.modLev_linkAt (p : Nat) (f : Level → Level) (i : Nat) : (s.modLev p f).linkAt i = s.linkAt i := rfl
@[simp] theorem State.modLev_ecAt (p : Nat) (f : Level → Level) (i : Nat) : (s.modLev p f).ecAt i = s.ecAt i := rfl
@[simp] theorem State.modLev_levAt (p : Nat) (f : Level → Level) (i : Nat) :
    (s.modLev p f).levAt i = if p = i ∧ p < 16 then f (s.levAt p) else s.levAt i := tget_tmod s.lev p i f
@[simp] theorem State.modLev_mixAt (p : Nat) (f : Level → Level) (i : Nat) : (s.modLev p f).mixAt i = s.mixAt i := rfl
@[simp] theorem State.modLev_clipAt (p : Nat) (f : Level → Level) (i : Nat) : (s.modLev p f).clipAt i = s.clipAt i := rfl
@[simp] theorem State.modLev_slotAt (p : Nat) (f : Level → Level) (i : Nat) : (s.modLev p f).slotAt i = s.slotAt i := rfl
@[simp] theorem State.modLev_progAt (p : Nat) (f : Level → Level) (i : Nat) : (s.modLev p f).progAt i = s.progAt i := rfl
@[simp] theorem State.modLev_queueAt (p : Nat) (f : Level → Level) (i : Nat) : (s.modLev p f).queueAt i = s.queueAt i := rfl
@[simp] theorem State.modLev_segsOf (p : Nat) (f : Level → Level) (i : Nat) : (s.modLev p f).segsOf i = s.segsOf i := rfl
@[simp] theorem State.modLev_segAt (p : Nat) (f : Level → Level) (i : Nat) : (s.modLev p f).segAt i = s.segAt i := rfl

/-! ### modMix -/

@[simp] theorem State.modMix_pending (p : Nat) (f : Mix → Mix) : (s.modMix p f).pending = s.pending := rfl
@[simp] theorem State.modMix_mode (p : Nat) (f : Mix → Mix) : (s.modMix p f).mode = s.mode := rfl
@[simp] theorem State.modMix_resetHeld (p : Nat) (f : Mix → Mix) : (s.modMix p f).resetHeld = s.resetHeld := rfl
@[simp] theorem State.modMix_pos (p : Nat) (f : Mix → Mix) : (s.modMix p f).pos = s.pos := rfl
@[simp] theorem State.modMix_link (p : Nat) (f : Mix → Mix) : (s.modMix p f).link = s.link := rfl
@[simp] theorem State.modMix_ec (p : Nat) (f : Mix → Mix) : (s.modMix p f).ec = s.ec := rfl
@[simp] theorem State.modMix_pool (p : Nat) (f : Mix → Mix) : (s.modMix p f).pool = s.pool := rfl
@[simp] theorem State.modMix_lev (p : Nat) (f : Mix → Mix) : (s.modMix p f).lev = s.lev := rfl
@[simp] theorem State.modMix_params (p : Nat) (f : Mix → Mix) : (s.modMix p f).params = s.params := rfl
@[simp] theorem State.modMix_mix (p : Nat) (f : Mix → Mix) : (s.modMix p f).mix = tmod s.mix p f := rfl
@[simp] theorem State.modMix_clip (p : Nat) (f : Mix → Mix) : (s.modMix p f).clip = s.clip := rfl
@[simp] theorem State.modMix_slot (p : Nat) (f : Mix → Mix) : (s.modMix p f).slot = s.slot := rfl
@[simp] theorem State.modMix_prog (p : Nat) (f : Mix → Mix) : (s.modMix p f).prog = s.prog := rfl
@[simp] theorem State.modMix_queue (p : Nat) (f : Mix → Mix) : (s.modMix p f).queue = s.queue := rfl
@[simp] theorem State.modMix_waitList (p : Nat) (f : Mix → Mix) : (s.modMix p f).waitList = s.waitList := rfl
@[simp] theorem State.modMix_store (p : Nat) (f : Mix → Mix) : (s.modMix p f).store = s.store := rfl
@[simp] theorem State.modMix_tmn (p : Nat) (f : Mix → Mix) : (s.modMix p f).tmn = s.tmn := rfl
@[simp] theorem State.modMix_hwy (p : Nat) (f : Mix → Mix) : (s.modMix p f).hwy = s.hwy := rfl
@[simp] theorem State.modMix_words (p : Nat) (f : Mix → Mix) : (s.modMix p f).words = s.words := rfl
@[simp] theorem State.modMix_port (p : Nat) (f : Mix → Mix) : (s.modMix p f).port = s.port := rfl
@[simp] theorem State.modMix_callQ (p : Nat) (f : Mix → Mix) : (s.modMix p f).callQ = s.callQ := rfl
@[simp] theorem State.modMix_floorQ (p : Nat) (f : Mix → Mix) : (s.modMix p f).floorQ = s.floorQ := rfl
@[simp] theorem State.modMix_maintQ (p : Nat) (f : Mix → Mix) : (s.modMix p f).maintQ = s.maintQ := rfl
@[simp] theorem State.modMix_posAt (p : Nat) (f : Mix → Mix) (i : Nat) : (s.modMix p f).posAt i = s.posAt i := rfl
@[simp] theorem State.modMix_linkAt (p : Nat) (f : Mix → Mix) (i : Nat) : (s.modMix p f).linkAt i = s.linkAt i := rfl
@[simp] theorem State.modMix_ecAt (p : Nat) (f : Mix → Mix) (i : Nat) : (s.modMix p f).ecAt i = s.ecAt i := rfl
@[simp] theorem State.modMix_levAt (p : Nat) (f : Mix → Mix) (i : Nat) : (s.modMix p f).levAt i = s.levAt i := rfl
@[simp] theorem State.modMix_mixAt (p : Nat) (f : Mix → Mix) (i : Nat) :
    (s.modMix p f).mixAt i = if p = i ∧ p < 16 then f (s.mixAt p) else s.mixAt i := tget_tmod s.mix p i f
@[simp] theorem State.modMix_clipAt (p : Nat) (f : Mix → Mix) (i : Nat) : (s.modMix p f).clipAt i = s.clipAt i := rfl
@[simp] theorem State.modMix_slotAt (p : Nat) (f : Mix → Mix) (i : Nat) : (s.modMix p f).slotAt i = s.slotAt i := rfl
@[simp] theorem State.modMix_progAt (p : Nat) (f : Mix → Mix) (i : Nat) : (s.modMix p f).progAt i = s.progAt i := rfl
@[simp] theorem State.modMix_queueAt (p : Nat) (f : Mix → Mix) (i : Nat) : (s.modMix p f).queueAt i = s.queueAt i := rfl
@[simp] theorem State.modMix_segsOf (p : Nat) (f : Mix → Mix) (i : Nat) : (s.modMix p f).segsOf i = s.segsOf i := rfl
@[simp] theorem State.modMix_segAt (p : Nat) (f : Mix → Mix) (i : Nat) : (s.modMix p f).segAt i = s.segAt i := rfl

/-! ### modClip -/

@[simp] theorem State.modClip_pending (p : Nat) (f : Clip → Clip) : (s.modClip p f).pending = s.pending := rfl
@[simp] theorem State.modClip_mode (p : Nat) (f : Clip → Clip) : (s.modClip p f).mode = s.mode := rfl
@[simp] theorem State.modClip_resetHeld (p : Nat) (f : Clip → Clip) : (s.modClip p f).resetHeld = s.resetHeld := rfl
@[simp] theorem State.modClip_pos (p : Nat) (f : Clip → Clip) : (s.modClip p f).pos = s.pos := rfl
@[simp] theorem State.modClip_link (p : Nat) (f : Clip → Clip) : (s.modClip p f).link = s.link := rfl
@[simp] theorem State.modClip_ec (p : Nat) (f : Clip → Clip) : (s.modClip p f).ec = s.ec := rfl
@[simp] theorem State.modClip_pool (p : Nat) (f : Clip → Clip) : (s.modClip p f).pool = s.pool := rfl
@[simp] theorem State.modClip_lev (p : Nat) (f : Clip → Clip) : (s.modClip p f).lev = s.lev := rfl
@[simp] theorem State.modClip_params (p : Nat) (f : Clip → Clip) : (s.modClip p f).params = s.params := rfl
@[simp] theorem State.modClip_mix (p : Nat) (f : Clip → Clip) : (s.modClip p f).mix = s.mix := rfl
@[simp] theorem State.modClip_clip (p : Nat) (f : Clip → Clip) : (s.modClip p f).clip = tmod s.clip p f := rfl
@[simp] theorem State.modClip_slot (p : Nat) (f : Clip → Clip) : (s.modClip p f).slot = s.slot := rfl
@[simp] theorem State.modClip_prog (p : Nat) (f : Clip → Clip) : (s.modClip p f).prog = s.prog := rfl
@[simp] theorem State.modClip_queue (p : Nat) (f : Clip → Clip) : (s.modClip p f).queue = s.queue := rfl
@[simp] theorem State.modClip_waitList (p : Nat) (f : Clip → Clip) : (s.modClip p f).waitList = s.waitList := rfl
@[simp] theorem State.modClip_store (p : Nat) (f : Clip → Clip) : (s.modClip p f).store = s.store := rfl
@[simp] theorem State.modClip_tmn (p : Nat) (f : Clip → Clip) : (s.modClip p f).tmn = s.tmn := rfl
@[simp] theorem State.modClip_hwy (p : Nat) (f : Clip → Clip) : (s.modClip p f).hwy = s.hwy := rfl
@[simp] theorem State.modClip_words (p : Nat) (f : Clip → Clip) : (s.modClip p f).words = s.words := rfl
@[simp] theorem State.modClip_port (p : Nat) (f : Clip → Clip) : (s.modClip p f).port = s.port := rfl
@[simp] theorem State.modClip_callQ (p : Nat) (f : Clip → Clip) : (s.modClip p f).callQ = s.callQ := rfl
@[simp] theorem State.modClip_floorQ (p : Nat) (f : Clip → Clip) : (s.modClip p f).floorQ = s.floorQ := rfl
@[simp] theorem State.modClip_maintQ (p : Nat) (f : Clip → Clip) : (s.modClip p f).maintQ = s.maintQ := rfl
@[simp] theorem State.modClip_posAt (p : Nat) (f : Clip → Clip) (i : Nat) : (s.modClip p f).posAt i = s.posAt i := rfl
@[simp] theorem State.modClip_linkAt (p : Nat) (f : Clip → Clip) (i : Nat) : (s.modClip p f).linkAt i = s.linkAt i := rfl
@[simp] theorem State.modClip_ecAt (p : Nat) (f : Clip → Clip) (i : Nat) : (s.modClip p f).ecAt i = s.ecAt i := rfl
@[simp] theorem State.modClip_levAt (p : Nat) (f : Clip → Clip) (i : Nat) : (s.modClip p f).levAt i = s.levAt i := rfl
@[simp] theorem State.modClip_mixAt (p : Nat) (f : Clip → Clip) (i : Nat) : (s.modClip p f).mixAt i = s.mixAt i := rfl
@[simp] theorem State.modClip_clipAt (p : Nat) (f : Clip → Clip) (i : Nat) :
    (s.modClip p f).clipAt i = if p = i ∧ p < 128 then f (s.clipAt p) else s.clipAt i := tget_tmod s.clip p i f
@[simp] theorem State.modClip_slotAt (p : Nat) (f : Clip → Clip) (i : Nat) : (s.modClip p f).slotAt i = s.slotAt i := rfl
@[simp] theorem State.modClip_progAt (p : Nat) (f : Clip → Clip) (i : Nat) : (s.modClip p f).progAt i = s.progAt i := rfl
@[simp] theorem State.modClip_queueAt (p : Nat) (f : Clip → Clip) (i : Nat) : (s.modClip p f).queueAt i = s.queueAt i := rfl
@[simp] theorem State.modClip_segsOf (p : Nat) (f : Clip → Clip) (i : Nat) : (s.modClip p f).segsOf i = s.segsOf i := rfl
@[simp] theorem State.modClip_segAt (p : Nat) (f : Clip → Clip) (i : Nat) : (s.modClip p f).segAt i = s.segAt i := rfl

/-! ### modSlot -/

@[simp] theorem State.modSlot_pending (p : Nat) (f : Slot → Slot) : (s.modSlot p f).pending = s.pending := rfl
@[simp] theorem State.modSlot_mode (p : Nat) (f : Slot → Slot) : (s.modSlot p f).mode = s.mode := rfl
@[simp] theorem State.modSlot_resetHeld (p : Nat) (f : Slot → Slot) : (s.modSlot p f).resetHeld = s.resetHeld := rfl
@[simp] theorem State.modSlot_pos (p : Nat) (f : Slot → Slot) : (s.modSlot p f).pos = s.pos := rfl
@[simp] theorem State.modSlot_link (p : Nat) (f : Slot → Slot) : (s.modSlot p f).link = s.link := rfl
@[simp] theorem State.modSlot_ec (p : Nat) (f : Slot → Slot) : (s.modSlot p f).ec = s.ec := rfl
@[simp] theorem State.modSlot_pool (p : Nat) (f : Slot → Slot) : (s.modSlot p f).pool = s.pool := rfl
@[simp] theorem State.modSlot_lev (p : Nat) (f : Slot → Slot) : (s.modSlot p f).lev = s.lev := rfl
@[simp] theorem State.modSlot_params (p : Nat) (f : Slot → Slot) : (s.modSlot p f).params = s.params := rfl
@[simp] theorem State.modSlot_mix (p : Nat) (f : Slot → Slot) : (s.modSlot p f).mix = s.mix := rfl
@[simp] theorem State.modSlot_clip (p : Nat) (f : Slot → Slot) : (s.modSlot p f).clip = s.clip := rfl
@[simp] theorem State.modSlot_slot (p : Nat) (f : Slot → Slot) : (s.modSlot p f).slot = tmod s.slot p f := rfl
@[simp] theorem State.modSlot_prog (p : Nat) (f : Slot → Slot) : (s.modSlot p f).prog = s.prog := rfl
@[simp] theorem State.modSlot_queue (p : Nat) (f : Slot → Slot) : (s.modSlot p f).queue = s.queue := rfl
@[simp] theorem State.modSlot_waitList (p : Nat) (f : Slot → Slot) : (s.modSlot p f).waitList = s.waitList := rfl
@[simp] theorem State.modSlot_store (p : Nat) (f : Slot → Slot) : (s.modSlot p f).store = s.store := rfl
@[simp] theorem State.modSlot_tmn (p : Nat) (f : Slot → Slot) : (s.modSlot p f).tmn = s.tmn := rfl
@[simp] theorem State.modSlot_hwy (p : Nat) (f : Slot → Slot) : (s.modSlot p f).hwy = s.hwy := rfl
@[simp] theorem State.modSlot_words (p : Nat) (f : Slot → Slot) : (s.modSlot p f).words = s.words := rfl
@[simp] theorem State.modSlot_port (p : Nat) (f : Slot → Slot) : (s.modSlot p f).port = s.port := rfl
@[simp] theorem State.modSlot_callQ (p : Nat) (f : Slot → Slot) : (s.modSlot p f).callQ = s.callQ := rfl
@[simp] theorem State.modSlot_floorQ (p : Nat) (f : Slot → Slot) : (s.modSlot p f).floorQ = s.floorQ := rfl
@[simp] theorem State.modSlot_maintQ (p : Nat) (f : Slot → Slot) : (s.modSlot p f).maintQ = s.maintQ := rfl
@[simp] theorem State.modSlot_posAt (p : Nat) (f : Slot → Slot) (i : Nat) : (s.modSlot p f).posAt i = s.posAt i := rfl
@[simp] theorem State.modSlot_linkAt (p : Nat) (f : Slot → Slot) (i : Nat) : (s.modSlot p f).linkAt i = s.linkAt i := rfl
@[simp] theorem State.modSlot_ecAt (p : Nat) (f : Slot → Slot) (i : Nat) : (s.modSlot p f).ecAt i = s.ecAt i := rfl
@[simp] theorem State.modSlot_levAt (p : Nat) (f : Slot → Slot) (i : Nat) : (s.modSlot p f).levAt i = s.levAt i := rfl
@[simp] theorem State.modSlot_mixAt (p : Nat) (f : Slot → Slot) (i : Nat) : (s.modSlot p f).mixAt i = s.mixAt i := rfl
@[simp] theorem State.modSlot_clipAt (p : Nat) (f : Slot → Slot) (i : Nat) : (s.modSlot p f).clipAt i = s.clipAt i := rfl
@[simp] theorem State.modSlot_slotAt (p : Nat) (f : Slot → Slot) (i : Nat) :
    (s.modSlot p f).slotAt i = if p = i ∧ p < 24 then f (s.slotAt p) else s.slotAt i := tget_tmod s.slot p i f
@[simp] theorem State.modSlot_progAt (p : Nat) (f : Slot → Slot) (i : Nat) : (s.modSlot p f).progAt i = s.progAt i := rfl
@[simp] theorem State.modSlot_queueAt (p : Nat) (f : Slot → Slot) (i : Nat) : (s.modSlot p f).queueAt i = s.queueAt i := rfl
@[simp] theorem State.modSlot_segsOf (p : Nat) (f : Slot → Slot) (i : Nat) : (s.modSlot p f).segsOf i = s.segsOf i := rfl
@[simp] theorem State.modSlot_segAt (p : Nat) (f : Slot → Slot) (i : Nat) : (s.modSlot p f).segAt i = s.segAt i := rfl

/-! ### modProg -/

@[simp] theorem State.modProg_pending (p : Nat) (f : Programme → Programme) : (s.modProg p f).pending = s.pending := rfl
@[simp] theorem State.modProg_mode (p : Nat) (f : Programme → Programme) : (s.modProg p f).mode = s.mode := rfl
@[simp] theorem State.modProg_resetHeld (p : Nat) (f : Programme → Programme) : (s.modProg p f).resetHeld = s.resetHeld := rfl
@[simp] theorem State.modProg_pos (p : Nat) (f : Programme → Programme) : (s.modProg p f).pos = s.pos := rfl
@[simp] theorem State.modProg_link (p : Nat) (f : Programme → Programme) : (s.modProg p f).link = s.link := rfl
@[simp] theorem State.modProg_ec (p : Nat) (f : Programme → Programme) : (s.modProg p f).ec = s.ec := rfl
@[simp] theorem State.modProg_pool (p : Nat) (f : Programme → Programme) : (s.modProg p f).pool = s.pool := rfl
@[simp] theorem State.modProg_lev (p : Nat) (f : Programme → Programme) : (s.modProg p f).lev = s.lev := rfl
@[simp] theorem State.modProg_params (p : Nat) (f : Programme → Programme) : (s.modProg p f).params = s.params := rfl
@[simp] theorem State.modProg_mix (p : Nat) (f : Programme → Programme) : (s.modProg p f).mix = s.mix := rfl
@[simp] theorem State.modProg_clip (p : Nat) (f : Programme → Programme) : (s.modProg p f).clip = s.clip := rfl
@[simp] theorem State.modProg_slot (p : Nat) (f : Programme → Programme) : (s.modProg p f).slot = s.slot := rfl
@[simp] theorem State.modProg_prog (p : Nat) (f : Programme → Programme) : (s.modProg p f).prog = tmod s.prog p f := rfl
@[simp] theorem State.modProg_queue (p : Nat) (f : Programme → Programme) : (s.modProg p f).queue = s.queue := rfl
@[simp] theorem State.modProg_waitList (p : Nat) (f : Programme → Programme) : (s.modProg p f).waitList = s.waitList := rfl
@[simp] theorem State.modProg_store (p : Nat) (f : Programme → Programme) : (s.modProg p f).store = s.store := rfl
@[simp] theorem State.modProg_tmn (p : Nat) (f : Programme → Programme) : (s.modProg p f).tmn = s.tmn := rfl
@[simp] theorem State.modProg_hwy (p : Nat) (f : Programme → Programme) : (s.modProg p f).hwy = s.hwy := rfl
@[simp] theorem State.modProg_words (p : Nat) (f : Programme → Programme) : (s.modProg p f).words = s.words := rfl
@[simp] theorem State.modProg_port (p : Nat) (f : Programme → Programme) : (s.modProg p f).port = s.port := rfl
@[simp] theorem State.modProg_callQ (p : Nat) (f : Programme → Programme) : (s.modProg p f).callQ = s.callQ := rfl
@[simp] theorem State.modProg_floorQ (p : Nat) (f : Programme → Programme) : (s.modProg p f).floorQ = s.floorQ := rfl
@[simp] theorem State.modProg_maintQ (p : Nat) (f : Programme → Programme) : (s.modProg p f).maintQ = s.maintQ := rfl
@[simp] theorem State.modProg_posAt (p : Nat) (f : Programme → Programme) (i : Nat) : (s.modProg p f).posAt i = s.posAt i := rfl
@[simp] theorem State.modProg_linkAt (p : Nat) (f : Programme → Programme) (i : Nat) : (s.modProg p f).linkAt i = s.linkAt i := rfl
@[simp] theorem State.modProg_ecAt (p : Nat) (f : Programme → Programme) (i : Nat) : (s.modProg p f).ecAt i = s.ecAt i := rfl
@[simp] theorem State.modProg_levAt (p : Nat) (f : Programme → Programme) (i : Nat) : (s.modProg p f).levAt i = s.levAt i := rfl
@[simp] theorem State.modProg_mixAt (p : Nat) (f : Programme → Programme) (i : Nat) : (s.modProg p f).mixAt i = s.mixAt i := rfl
@[simp] theorem State.modProg_clipAt (p : Nat) (f : Programme → Programme) (i : Nat) : (s.modProg p f).clipAt i = s.clipAt i := rfl
@[simp] theorem State.modProg_slotAt (p : Nat) (f : Programme → Programme) (i : Nat) : (s.modProg p f).slotAt i = s.slotAt i := rfl
@[simp] theorem State.modProg_progAt (p : Nat) (f : Programme → Programme) (i : Nat) :
    (s.modProg p f).progAt i = if p = i ∧ p < 4 then f (s.progAt p) else s.progAt i := tget_tmod s.prog p i f
@[simp] theorem State.modProg_queueAt (p : Nat) (f : Programme → Programme) (i : Nat) : (s.modProg p f).queueAt i = s.queueAt i := rfl
@[simp] theorem State.modProg_segsOf (p : Nat) (f : Programme → Programme) (i : Nat) : (s.modProg p f).segsOf i = s.segsOf i := rfl
@[simp] theorem State.modProg_segAt (p : Nat) (f : Programme → Programme) (i : Nat) : (s.modProg p f).segAt i = s.segAt i := rfl

/-! ### setQueue -/

@[simp] theorem State.setQueue_pending (p : Nat) (q : List WhisperItem) : (s.setQueue p q).pending = s.pending := rfl
@[simp] theorem State.setQueue_mode (p : Nat) (q : List WhisperItem) : (s.setQueue p q).mode = s.mode := rfl
@[simp] theorem State.setQueue_resetHeld (p : Nat) (q : List WhisperItem) : (s.setQueue p q).resetHeld = s.resetHeld := rfl
@[simp] theorem State.setQueue_pos (p : Nat) (q : List WhisperItem) : (s.setQueue p q).pos = s.pos := rfl
@[simp] theorem State.setQueue_link (p : Nat) (q : List WhisperItem) : (s.setQueue p q).link = s.link := rfl
@[simp] theorem State.setQueue_ec (p : Nat) (q : List WhisperItem) : (s.setQueue p q).ec = s.ec := rfl
@[simp] theorem State.setQueue_pool (p : Nat) (q : List WhisperItem) : (s.setQueue p q).pool = s.pool := rfl
@[simp] theorem State.setQueue_lev (p : Nat) (q : List WhisperItem) : (s.setQueue p q).lev = s.lev := rfl
@[simp] theorem State.setQueue_params (p : Nat) (q : List WhisperItem) : (s.setQueue p q).params = s.params := rfl
@[simp] theorem State.setQueue_mix (p : Nat) (q : List WhisperItem) : (s.setQueue p q).mix = s.mix := rfl
@[simp] theorem State.setQueue_clip (p : Nat) (q : List WhisperItem) : (s.setQueue p q).clip = s.clip := rfl
@[simp] theorem State.setQueue_slot (p : Nat) (q : List WhisperItem) : (s.setQueue p q).slot = s.slot := rfl
@[simp] theorem State.setQueue_prog (p : Nat) (q : List WhisperItem) : (s.setQueue p q).prog = s.prog := rfl
@[simp] theorem State.setQueue_queue (p : Nat) (q : List WhisperItem) : (s.setQueue p q).queue = tset s.queue p q := rfl
@[simp] theorem State.setQueue_waitList (p : Nat) (q : List WhisperItem) : (s.setQueue p q).waitList = s.waitList := rfl
@[simp] theorem State.setQueue_store (p : Nat) (q : List WhisperItem) : (s.setQueue p q).store = s.store := rfl
@[simp] theorem State.setQueue_tmn (p : Nat) (q : List WhisperItem) : (s.setQueue p q).tmn = s.tmn := rfl
@[simp] theorem State.setQueue_hwy (p : Nat) (q : List WhisperItem) : (s.setQueue p q).hwy = s.hwy := rfl
@[simp] theorem State.setQueue_words (p : Nat) (q : List WhisperItem) : (s.setQueue p q).words = s.words := rfl
@[simp] theorem State.setQueue_port (p : Nat) (q : List WhisperItem) : (s.setQueue p q).port = s.port := rfl
@[simp] theorem State.setQueue_callQ (p : Nat) (q : List WhisperItem) : (s.setQueue p q).callQ = s.callQ := rfl
@[simp] theorem State.setQueue_floorQ (p : Nat) (q : List WhisperItem) : (s.setQueue p q).floorQ = s.floorQ := rfl
@[simp] theorem State.setQueue_maintQ (p : Nat) (q : List WhisperItem) : (s.setQueue p q).maintQ = s.maintQ := rfl
@[simp] theorem State.setQueue_posAt (p : Nat) (q : List WhisperItem) (i : Nat) : (s.setQueue p q).posAt i = s.posAt i := rfl
@[simp] theorem State.setQueue_linkAt (p : Nat) (q : List WhisperItem) (i : Nat) : (s.setQueue p q).linkAt i = s.linkAt i := rfl
@[simp] theorem State.setQueue_ecAt (p : Nat) (q : List WhisperItem) (i : Nat) : (s.setQueue p q).ecAt i = s.ecAt i := rfl
@[simp] theorem State.setQueue_levAt (p : Nat) (q : List WhisperItem) (i : Nat) : (s.setQueue p q).levAt i = s.levAt i := rfl
@[simp] theorem State.setQueue_mixAt (p : Nat) (q : List WhisperItem) (i : Nat) : (s.setQueue p q).mixAt i = s.mixAt i := rfl
@[simp] theorem State.setQueue_clipAt (p : Nat) (q : List WhisperItem) (i : Nat) : (s.setQueue p q).clipAt i = s.clipAt i := rfl
@[simp] theorem State.setQueue_slotAt (p : Nat) (q : List WhisperItem) (i : Nat) : (s.setQueue p q).slotAt i = s.slotAt i := rfl
@[simp] theorem State.setQueue_progAt (p : Nat) (q : List WhisperItem) (i : Nat) : (s.setQueue p q).progAt i = s.progAt i := rfl
@[simp] theorem State.setQueue_queueAt (p : Nat) (q : List WhisperItem) (i : Nat) :
    (s.setQueue p q).queueAt i = if p = i ∧ p < 16 then q else s.queueAt i := tget_tset s.queue p i q
@[simp] theorem State.setQueue_segsOf (p : Nat) (q : List WhisperItem) (i : Nat) : (s.setQueue p q).segsOf i = s.segsOf i := rfl
@[simp] theorem State.setQueue_segAt (p : Nat) (q : List WhisperItem) (i : Nat) : (s.setQueue p q).segAt i = s.segAt i := rfl

/-! ### modSegs -/

@[simp] theorem State.modSegs_pending (p : Nat) (f : List Nat → List Nat) : (s.modSegs p f).pending = s.pending := rfl
@[simp] theorem State.modSegs_mode (p : Nat) (f : List Nat → List Nat) : (s.modSegs p f).mode = s.mode := rfl
@[simp] theorem State.modSegs_resetHeld (p : Nat) (f : List Nat → List Nat) : (s.modSegs p f).resetHeld = s.resetHeld := rfl
@[simp] theorem State.modSegs_pos (p : Nat) (f : List Nat → List Nat) : (s.modSegs p f).pos = s.pos := rfl
@[simp] theorem State.modSegs_link (p : Nat) (f : List Nat → List Nat) : (s.modSegs p f).link = s.link := rfl
@[simp] theorem State.modSegs_ec (p : Nat) (f : List Nat → List Nat) : (s.modSegs p f).ec = s.ec := rfl
@[simp] theorem State.modSegs_pool (p : Nat) (f : List Nat → List Nat) : (s.modSegs p f).pool = { s.pool with lists := tmod s.pool.lists p f } := rfl
@[simp] theorem State.modSegs_lev (p : Nat) (f : List Nat → List Nat) : (s.modSegs p f).lev = s.lev := rfl
@[simp] theorem State.modSegs_params (p : Nat) (f : List Nat → List Nat) : (s.modSegs p f).params = s.params := rfl
@[simp] theorem State.modSegs_mix (p : Nat) (f : List Nat → List Nat) : (s.modSegs p f).mix = s.mix := rfl
@[simp] theorem State.modSegs_clip (p : Nat) (f : List Nat → List Nat) : (s.modSegs p f).clip = s.clip := rfl
@[simp] theorem State.modSegs_slot (p : Nat) (f : List Nat → List Nat) : (s.modSegs p f).slot = s.slot := rfl
@[simp] theorem State.modSegs_prog (p : Nat) (f : List Nat → List Nat) : (s.modSegs p f).prog = s.prog := rfl
@[simp] theorem State.modSegs_queue (p : Nat) (f : List Nat → List Nat) : (s.modSegs p f).queue = s.queue := rfl
@[simp] theorem State.modSegs_waitList (p : Nat) (f : List Nat → List Nat) : (s.modSegs p f).waitList = s.waitList := rfl
@[simp] theorem State.modSegs_store (p : Nat) (f : List Nat → List Nat) : (s.modSegs p f).store = s.store := rfl
@[simp] theorem State.modSegs_tmn (p : Nat) (f : List Nat → List Nat) : (s.modSegs p f).tmn = s.tmn := rfl
@[simp] theorem State.modSegs_hwy (p : Nat) (f : List Nat → List Nat) : (s.modSegs p f).hwy = s.hwy := rfl
@[simp] theorem State.modSegs_words (p : Nat) (f : List Nat → List Nat) : (s.modSegs p f).words = s.words := rfl
@[simp] theorem State.modSegs_port (p : Nat) (f : List Nat → List Nat) : (s.modSegs p f).port = s.port := rfl
@[simp] theorem State.modSegs_callQ (p : Nat) (f : List Nat → List Nat) : (s.modSegs p f).callQ = s.callQ := rfl
@[simp] theorem State.modSegs_floorQ (p : Nat) (f : List Nat → List Nat) : (s.modSegs p f).floorQ = s.floorQ := rfl
@[simp] theorem State.modSegs_maintQ (p : Nat) (f : List Nat → List Nat) : (s.modSegs p f).maintQ = s.maintQ := rfl
@[simp] theorem State.modSegs_posAt (p : Nat) (f : List Nat → List Nat) (i : Nat) : (s.modSegs p f).posAt i = s.posAt i := rfl
@[simp] theorem State.modSegs_linkAt (p : Nat) (f : List Nat → List Nat) (i : Nat) : (s.modSegs p f).linkAt i = s.linkAt i := rfl
@[simp] theorem State.modSegs_ecAt (p : Nat) (f : List Nat → List Nat) (i : Nat) : (s.modSegs p f).ecAt i = s.ecAt i := rfl
@[simp] theorem State.modSegs_levAt (p : Nat) (f : List Nat → List Nat) (i : Nat) : (s.modSegs p f).levAt i = s.levAt i := rfl
@[simp] theorem State.modSegs_mixAt (p : Nat) (f : List Nat → List Nat) (i : Nat) : (s.modSegs p f).mixAt i = s.mixAt i := rfl
@[simp] theorem State.modSegs_clipAt (p : Nat) (f : List Nat → List Nat) (i : Nat) : (s.modSegs p f).clipAt i = s.clipAt i := rfl
@[simp] theorem State.modSegs_slotAt (p : Nat) (f : List Nat → List Nat) (i : Nat) : (s.modSegs p f).slotAt i = s.slotAt i := rfl
@[simp] theorem State.modSegs_progAt (p : Nat) (f : List Nat → List Nat) (i : Nat) : (s.modSegs p f).progAt i = s.progAt i := rfl
@[simp] theorem State.modSegs_queueAt (p : Nat) (f : List Nat → List Nat) (i : Nat) : (s.modSegs p f).queueAt i = s.queueAt i := rfl
@[simp] theorem State.modSegs_segsOf (p : Nat) (f : List Nat → List Nat) (i : Nat) :
    (s.modSegs p f).segsOf i = if p = i ∧ p < 16 then f (s.segsOf p) else s.segsOf i := tget_tmod s.pool.lists p i f
@[simp] theorem State.modSegs_segAt (p : Nat) (f : List Nat → List Nat) (i : Nat) : (s.modSegs p f).segAt i = s.segAt i := rfl

/-! ### modSeg -/

@[simp] theorem State.modSeg_pending (g : Nat) (f : Segment → Segment) : (s.modSeg g f).pending = s.pending := rfl
@[simp] theorem State.modSeg_mode (g : Nat) (f : Segment → Segment) : (s.modSeg g f).mode = s.mode := rfl
@[simp] theorem State.modSeg_resetHeld (g : Nat) (f : Segment → Segment) : (s.modSeg g f).resetHeld = s.resetHeld := rfl
@[simp] theorem State.modSeg_pos (g : Nat) (f : Segment → Segment) : (s.modSeg g f).pos = s.pos := rfl
@[simp] theorem State.modSeg_link (g : Nat) (f : Segment → Segment) : (s.modSeg g f).link = s.link := rfl
@[simp] theorem State.modSeg_ec (g : Nat) (f : Segment → Segment) : (s.modSeg g f).ec = s.ec := rfl
@[simp] theorem State.modSeg_pool (g : Nat) (f : Segment → Segment) : (s.modSeg g f).pool = { s.pool with segs := tmod s.pool.segs g f } := rfl
@[simp] theorem State.modSeg_lev (g : Nat) (f : Segment → Segment) : (s.modSeg g f).lev = s.lev := rfl
@[simp] theorem State.modSeg_params (g : Nat) (f : Segment → Segment) : (s.modSeg g f).params = s.params := rfl
@[simp] theorem State.modSeg_mix (g : Nat) (f : Segment → Segment) : (s.modSeg g f).mix = s.mix := rfl
@[simp] theorem State.modSeg_clip (g : Nat) (f : Segment → Segment) : (s.modSeg g f).clip = s.clip := rfl
@[simp] theorem State.modSeg_slot (g : Nat) (f : Segment → Segment) : (s.modSeg g f).slot = s.slot := rfl
@[simp] theorem State.modSeg_prog (g : Nat) (f : Segment → Segment) : (s.modSeg g f).prog = s.prog := rfl
@[simp] theorem State.modSeg_queue (g : Nat) (f : Segment → Segment) : (s.modSeg g f).queue = s.queue := rfl
@[simp] theorem State.modSeg_waitList (g : Nat) (f : Segment → Segment) : (s.modSeg g f).waitList = s.waitList := rfl
@[simp] theorem State.modSeg_store (g : Nat) (f : Segment → Segment) : (s.modSeg g f).store = s.store := rfl
@[simp] theorem State.modSeg_tmn (g : Nat) (f : Segment → Segment) : (s.modSeg g f).tmn = s.tmn := rfl
@[simp] theorem State.modSeg_hwy (g : Nat) (f : Segment → Segment) : (s.modSeg g f).hwy = s.hwy := rfl
@[simp] theorem State.modSeg_words (g : Nat) (f : Segment → Segment) : (s.modSeg g f).words = s.words := rfl
@[simp] theorem State.modSeg_port (g : Nat) (f : Segment → Segment) : (s.modSeg g f).port = s.port := rfl
@[simp] theorem State.modSeg_callQ (g : Nat) (f : Segment → Segment) : (s.modSeg g f).callQ = s.callQ := rfl
@[simp] theorem State.modSeg_floorQ (g : Nat) (f : Segment → Segment) : (s.modSeg g f).floorQ = s.floorQ := rfl
@[simp] theorem State.modSeg_maintQ (g : Nat) (f : Segment → Segment) : (s.modSeg g f).maintQ = s.maintQ := rfl
@[simp] theorem State.modSeg_posAt (g : Nat) (f : Segment → Segment) (i : Nat) : (s.modSeg g f).posAt i = s.posAt i := rfl
@[simp] theorem State.modSeg_linkAt (g : Nat) (f : Segment → Segment) (i : Nat) : (s.modSeg g f).linkAt i = s.linkAt i := rfl
@[simp] theorem State.modSeg_ecAt (g : Nat) (f : Segment → Segment) (i : Nat) : (s.modSeg g f).ecAt i = s.ecAt i := rfl
@[simp] theorem State.modSeg_levAt (g : Nat) (f : Segment → Segment) (i : Nat) : (s.modSeg g f).levAt i = s.levAt i := rfl
@[simp] theorem State.modSeg_mixAt (g : Nat) (f : Segment → Segment) (i : Nat) : (s.modSeg g f).mixAt i = s.mixAt i := rfl
@[simp] theorem State.modSeg_clipAt (g : Nat) (f : Segment → Segment) (i : Nat) : (s.modSeg g f).clipAt i = s.clipAt i := rfl
@[simp] theorem State.modSeg_slotAt (g : Nat) (f : Segment → Segment) (i : Nat) : (s.modSeg g f).slotAt i = s.slotAt i := rfl
@[simp] theorem State.modSeg_progAt (g : Nat) (f : Segment → Segment) (i : Nat) : (s.modSeg g f).progAt i = s.progAt i := rfl
@[simp] theorem State.modSeg_queueAt (g : Nat) (f : Segment → Segment) (i : Nat) : (s.modSeg g f).queueAt i = s.queueAt i := rfl
@[simp] theorem State.modSeg_segsOf (g : Nat) (f : Segment → Segment) (i : Nat) : (s.modSeg g f).segsOf i = s.segsOf i := rfl
@[simp] theorem State.modSeg_segAt (g : Nat) (f : Segment → Segment) (i : Nat) :
    (s.modSeg g f).segAt i = if g = i ∧ g < 64 then f (s.segAt g) else s.segAt i := tget_tmod s.pool.segs g i f

/-! ### setShort -/

@[simp] theorem State.setShort_pending (l : List Nat) : (s.setShort l).pending = s.pending := rfl
@[simp] theorem State.setShort_mode (l : List Nat) : (s.setShort l).mode = s.mode := rfl
@[simp] theorem State.setShort_resetHeld (l : List Nat) : (s.setShort l).resetHeld = s.resetHeld := rfl
@[simp] theorem State.setShort_pos (l : List Nat) : (s.setShort l).pos = s.pos := rfl
@[simp] theorem State.setShort_link (l : List Nat) : (s.setShort l).link = s.link := rfl
@[simp] theorem State.setShort_ec (l : List Nat) : (s.setShort l).ec = s.ec := rfl
@[simp] theorem State.setShort_pool (l : List Nat) : (s.setShort l).pool = { s.pool with short := l } := rfl
@[simp] theorem State.setShort_lev (l : List Nat) : (s.setShort l).lev = s.lev := rfl
@[simp] theorem State.setShort_params (l : List Nat) : (s.setShort l).params = s.params := rfl
@[simp] theorem State.setShort_mix (l : List Nat) : (s.setShort l).mix = s.mix := rfl
@[simp] theorem State.setShort_clip (l : List Nat) : (s.setShort l).clip = s.clip := rfl
@[simp] theorem State.setShort_slot (l : List Nat) : (s.setShort l).slot = s.slot := rfl
@[simp] theorem State.setShort_prog (l : List Nat) : (s.setShort l).prog = s.prog := rfl
@[simp] theorem State.setShort_queue (l : List Nat) : (s.setShort l).queue = s.queue := rfl
@[simp] theorem State.setShort_waitList (l : List Nat) : (s.setShort l).waitList = s.waitList := rfl
@[simp] theorem State.setShort_store (l : List Nat) : (s.setShort l).store = s.store := rfl
@[simp] theorem State.setShort_tmn (l : List Nat) : (s.setShort l).tmn = s.tmn := rfl
@[simp] theorem State.setShort_hwy (l : List Nat) : (s.setShort l).hwy = s.hwy := rfl
@[simp] theorem State.setShort_words (l : List Nat) : (s.setShort l).words = s.words := rfl
@[simp] theorem State.setShort_port (l : List Nat) : (s.setShort l).port = s.port := rfl
@[simp] theorem State.setShort_callQ (l : List Nat) : (s.setShort l).callQ = s.callQ := rfl
@[simp] theorem State.setShort_floorQ (l : List Nat) : (s.setShort l).floorQ = s.floorQ := rfl
@[simp] theorem State.setShort_maintQ (l : List Nat) : (s.setShort l).maintQ = s.maintQ := rfl
@[simp] theorem State.setShort_posAt (l : List Nat) (i : Nat) : (s.setShort l).posAt i = s.posAt i := rfl
@[simp] theorem State.setShort_linkAt (l : List Nat) (i : Nat) : (s.setShort l).linkAt i = s.linkAt i := rfl
@[simp] theorem State.setShort_ecAt (l : List Nat) (i : Nat) : (s.setShort l).ecAt i = s.ecAt i := rfl
@[simp] theorem State.setShort_levAt (l : List Nat) (i : Nat) : (s.setShort l).levAt i = s.levAt i := rfl
@[simp] theorem State.setShort_mixAt (l : List Nat) (i : Nat) : (s.setShort l).mixAt i = s.mixAt i := rfl
@[simp] theorem State.setShort_clipAt (l : List Nat) (i : Nat) : (s.setShort l).clipAt i = s.clipAt i := rfl
@[simp] theorem State.setShort_slotAt (l : List Nat) (i : Nat) : (s.setShort l).slotAt i = s.slotAt i := rfl
@[simp] theorem State.setShort_progAt (l : List Nat) (i : Nat) : (s.setShort l).progAt i = s.progAt i := rfl
@[simp] theorem State.setShort_queueAt (l : List Nat) (i : Nat) : (s.setShort l).queueAt i = s.queueAt i := rfl
@[simp] theorem State.setShort_segsOf (l : List Nat) (i : Nat) : (s.setShort l).segsOf i = s.segsOf i := rfl
@[simp] theorem State.setShort_segAt (l : List Nat) (i : Nat) : (s.setShort l).segAt i = s.segAt i := rfl

/-! ### setWait -/

@[simp] theorem State.setWait_pending (l : List Nat) : (s.setWait l).pending = s.pending := rfl
@[simp] theorem State.setWait_mode (l : List Nat) : (s.setWait l).mode = s.mode := rfl
@[simp] theorem State.setWait_resetHeld (l : List Nat) : (s.setWait l).resetHeld = s.resetHeld := rfl
@[simp] theorem State.setWait_pos (l : List Nat) : (s.setWait l).pos = s.pos := rfl
@[simp] theorem State.setWait_link (l : List Nat) : (s.setWait l).link = s.link := rfl
@[simp] theorem State.setWait_ec (l : List Nat) : (s.setWait l).ec = s.ec := rfl
@[simp] theorem State.setWait_pool (l : List Nat) : (s.setWait l).pool = s.pool := rfl
@[simp] theorem State.setWait_lev (l : List Nat) : (s.setWait l).lev = s.lev := rfl
@[simp] theorem State.setWait_params (l : List Nat) : (s.setWait l).params = s.params := rfl
@[simp] theorem State.setWait_mix (l : List Nat) : (s.setWait l).mix = s.mix := rfl
@[simp] theorem State.setWait_clip (l : List Nat) : (s.setWait l).clip = s.clip := rfl
@[simp] theorem State.setWait_slot (l : List Nat) : (s.setWait l).slot = s.slot := rfl
@[simp] theorem State.setWait_prog (l : List Nat) : (s.setWait l).prog = s.prog := rfl
@[simp] theorem State.setWait_queue (l : List Nat) : (s.setWait l).queue = s.queue := rfl
@[simp] theorem State.setWait_waitList (l : List Nat) : (s.setWait l).waitList = l := rfl
@[simp] theorem State.setWait_store (l : List Nat) : (s.setWait l).store = s.store := rfl
@[simp] theorem State.setWait_tmn (l : List Nat) : (s.setWait l).tmn = s.tmn := rfl
@[simp] theorem State.setWait_hwy (l : List Nat) : (s.setWait l).hwy = s.hwy := rfl
@[simp] theorem State.setWait_words (l : List Nat) : (s.setWait l).words = s.words := rfl
@[simp] theorem State.setWait_port (l : List Nat) : (s.setWait l).port = s.port := rfl
@[simp] theorem State.setWait_callQ (l : List Nat) : (s.setWait l).callQ = s.callQ := rfl
@[simp] theorem State.setWait_floorQ (l : List Nat) : (s.setWait l).floorQ = s.floorQ := rfl
@[simp] theorem State.setWait_maintQ (l : List Nat) : (s.setWait l).maintQ = s.maintQ := rfl
@[simp] theorem State.setWait_posAt (l : List Nat) (i : Nat) : (s.setWait l).posAt i = s.posAt i := rfl
@[simp] theorem State.setWait_linkAt (l : List Nat) (i : Nat) : (s.setWait l).linkAt i = s.linkAt i := rfl
@[simp] theorem State.setWait_ecAt (l : List Nat) (i : Nat) : (s.setWait l).ecAt i = s.ecAt i := rfl
@[simp] theorem State.setWait_levAt (l : List Nat) (i : Nat) : (s.setWait l).levAt i = s.levAt i := rfl
@[simp] theorem State.setWait_mixAt (l : List Nat) (i : Nat) : (s.setWait l).mixAt i = s.mixAt i := rfl
@[simp] theorem State.setWait_clipAt (l : List Nat) (i : Nat) : (s.setWait l).clipAt i = s.clipAt i := rfl
@[simp] theorem State.setWait_slotAt (l : List Nat) (i : Nat) : (s.setWait l).slotAt i = s.slotAt i := rfl
@[simp] theorem State.setWait_progAt (l : List Nat) (i : Nat) : (s.setWait l).progAt i = s.progAt i := rfl
@[simp] theorem State.setWait_queueAt (l : List Nat) (i : Nat) : (s.setWait l).queueAt i = s.queueAt i := rfl
@[simp] theorem State.setWait_segsOf (l : List Nat) (i : Nat) : (s.setWait l).segsOf i = s.segsOf i := rfl
@[simp] theorem State.setWait_segAt (l : List Nat) (i : Nat) : (s.setWait l).segAt i = s.segAt i := rfl

/-! ### modStore -/

@[simp] theorem State.modStore_pending (f : Store → Store) : (s.modStore f).pending = s.pending := rfl
@[simp] theorem State.modStore_mode (f : Store → Store) : (s.modStore f).mode = s.mode := rfl
@[simp] theorem State.modStore_resetHeld (f : Store → Store) : (s.modStore f).resetHeld = s.resetHeld := rfl
@[simp] theorem State.modStore_pos (f : Store → Store) : (s.modStore f).pos = s.pos := rfl
@[simp] theorem State.modStore_link (f : Store → Store) : (s.modStore f).link = s.link := rfl
@[simp] theorem State.modStore_ec (f : Store → Store) : (s.modStore f).ec = s.ec := rfl
@[simp] theorem State.modStore_pool (f : Store → Store) : (s.modStore f).pool = s.pool := rfl
@[simp] theorem State.modStore_lev (f : Store → Store) : (s.modStore f).lev = s.lev := rfl
@[simp] theorem State.modStore_params (f : Store → Store) : (s.modStore f).params = s.params := rfl
@[simp] theorem State.modStore_mix (f : Store → Store) : (s.modStore f).mix = s.mix := rfl
@[simp] theorem State.modStore_clip (f : Store → Store) : (s.modStore f).clip = s.clip := rfl
@[simp] theorem State.modStore_slot (f : Store → Store) : (s.modStore f).slot = s.slot := rfl
@[simp] theorem State.modStore_prog (f : Store → Store) : (s.modStore f).prog = s.prog := rfl
@[simp] theorem State.modStore_queue (f : Store → Store) : (s.modStore f).queue = s.queue := rfl
@[simp] theorem State.modStore_waitList (f : Store → Store) : (s.modStore f).waitList = s.waitList := rfl
@[simp] theorem State.modStore_store (f : Store → Store) : (s.modStore f).store = f s.store := rfl
@[simp] theorem State.modStore_tmn (f : Store → Store) : (s.modStore f).tmn = s.tmn := rfl
@[simp] theorem State.modStore_hwy (f : Store → Store) : (s.modStore f).hwy = s.hwy := rfl
@[simp] theorem State.modStore_words (f : Store → Store) : (s.modStore f).words = s.words := rfl
@[simp] theorem State.modStore_port (f : Store → Store) : (s.modStore f).port = s.port := rfl
@[simp] theorem State.modStore_callQ (f : Store → Store) : (s.modStore f).callQ = s.callQ := rfl
@[simp] theorem State.modStore_floorQ (f : Store → Store) : (s.modStore f).floorQ = s.floorQ := rfl
@[simp] theorem State.modStore_maintQ (f : Store → Store) : (s.modStore f).maintQ = s.maintQ := rfl
@[simp] theorem State.modStore_posAt (f : Store → Store) (i : Nat) : (s.modStore f).posAt i = s.posAt i := rfl
@[simp] theorem State.modStore_linkAt (f : Store → Store) (i : Nat) : (s.modStore f).linkAt i = s.linkAt i := rfl
@[simp] theorem State.modStore_ecAt (f : Store → Store) (i : Nat) : (s.modStore f).ecAt i = s.ecAt i := rfl
@[simp] theorem State.modStore_levAt (f : Store → Store) (i : Nat) : (s.modStore f).levAt i = s.levAt i := rfl
@[simp] theorem State.modStore_mixAt (f : Store → Store) (i : Nat) : (s.modStore f).mixAt i = s.mixAt i := rfl
@[simp] theorem State.modStore_clipAt (f : Store → Store) (i : Nat) : (s.modStore f).clipAt i = s.clipAt i := rfl
@[simp] theorem State.modStore_slotAt (f : Store → Store) (i : Nat) : (s.modStore f).slotAt i = s.slotAt i := rfl
@[simp] theorem State.modStore_progAt (f : Store → Store) (i : Nat) : (s.modStore f).progAt i = s.progAt i := rfl
@[simp] theorem State.modStore_queueAt (f : Store → Store) (i : Nat) : (s.modStore f).queueAt i = s.queueAt i := rfl
@[simp] theorem State.modStore_segsOf (f : Store → Store) (i : Nat) : (s.modStore f).segsOf i = s.segsOf i := rfl
@[simp] theorem State.modStore_segAt (f : Store → Store) (i : Nat) : (s.modStore f).segAt i = s.segAt i := rfl

/-! ### modTmn -/

@[simp] theorem State.modTmn_pending (f : Timing → Timing) : (s.modTmn f).pending = s.pending := rfl
@[simp] theorem State.modTmn_mode (f : Timing → Timing) : (s.modTmn f).mode = s.mode := rfl
@[simp] theorem State.modTmn_resetHeld (f : Timing → Timing) : (s.modTmn f).resetHeld = s.resetHeld := rfl
@[simp] theorem State.modTmn_pos (f : Timing → Timing) : (s.modTmn f).pos = s.pos := rfl
@[simp] theorem State.modTmn_link (f : Timing → Timing) : (s.modTmn f).link = s.link := rfl
@[simp] theorem State.modTmn_ec (f : Timing → Timing) : (s.modTmn f).ec = s.ec := rfl
@[simp] theorem State.modTmn_pool (f : Timing → Timing) : (s.modTmn f).pool = s.pool := rfl
@[simp] theorem State.modTmn_lev (f : Timing → Timing) : (s.modTmn f).lev = s.lev := rfl
@[simp] theorem State.modTmn_params (f : Timing → Timing) : (s.modTmn f).params = s.params := rfl
@[simp] theorem State.modTmn_mix (f : Timing → Timing) : (s.modTmn f).mix = s.mix := rfl
@[simp] theorem State.modTmn_clip (f : Timing → Timing) : (s.modTmn f).clip = s.clip := rfl
@[simp] theorem State.modTmn_slot (f : Timing → Timing) : (s.modTmn f).slot = s.slot := rfl
@[simp] theorem State.modTmn_prog (f : Timing → Timing) : (s.modTmn f).prog = s.prog := rfl
@[simp] theorem State.modTmn_queue (f : Timing → Timing) : (s.modTmn f).queue = s.queue := rfl
@[simp] theorem State.modTmn_waitList (f : Timing → Timing) : (s.modTmn f).waitList = s.waitList := rfl
@[simp] theorem State.modTmn_store (f : Timing → Timing) : (s.modTmn f).store = s.store := rfl
@[simp] theorem State.modTmn_tmn (f : Timing → Timing) : (s.modTmn f).tmn = f s.tmn := rfl
@[simp] theorem State.modTmn_hwy (f : Timing → Timing) : (s.modTmn f).hwy = s.hwy := rfl
@[simp] theorem State.modTmn_words (f : Timing → Timing) : (s.modTmn f).words = s.words := rfl
@[simp] theorem State.modTmn_port (f : Timing → Timing) : (s.modTmn f).port = s.port := rfl
@[simp] theorem State.modTmn_callQ (f : Timing → Timing) : (s.modTmn f).callQ = s.callQ := rfl
@[simp] theorem State.modTmn_floorQ (f : Timing → Timing) : (s.modTmn f).floorQ = s.floorQ := rfl
@[simp] theorem State.modTmn_maintQ (f : Timing → Timing) : (s.modTmn f).maintQ = s.maintQ := rfl
@[simp] theorem State.modTmn_posAt (f : Timing → Timing) (i : Nat) : (s.modTmn f).posAt i = s.posAt i := rfl
@[simp] theorem State.modTmn_linkAt (f : Timing → Timing) (i : Nat) : (s.modTmn f).linkAt i = s.linkAt i := rfl
@[simp] theorem State.modTmn_ecAt (f : Timing → Timing) (i : Nat) : (s.modTmn f).ecAt i = s.ecAt i := rfl
@[simp] theorem State.modTmn_levAt (f : Timing → Timing) (i : Nat) : (s.modTmn f).levAt i = s.levAt i := rfl
@[simp] theorem State.modTmn_mixAt (f : Timing → Timing) (i : Nat) : (s.modTmn f).mixAt i = s.mixAt i := rfl
@[simp] theorem State.modTmn_clipAt (f : Timing → Timing) (i : Nat) : (s.modTmn f).clipAt i = s.clipAt i := rfl
@[simp] theorem State.modTmn_slotAt (f : Timing → Timing) (i : Nat) : (s.modTmn f).slotAt i = s.slotAt i := rfl
@[simp] theorem State.modTmn_progAt (f : Timing → Timing) (i : Nat) : (s.modTmn f).progAt i = s.progAt i := rfl
@[simp] theorem State.modTmn_queueAt (f : Timing → Timing) (i : Nat) : (s.modTmn f).queueAt i = s.queueAt i := rfl
@[simp] theorem State.modTmn_segsOf (f : Timing → Timing) (i : Nat) : (s.modTmn f).segsOf i = s.segsOf i := rfl
@[simp] theorem State.modTmn_segAt (f : Timing → Timing) (i : Nat) : (s.modTmn f).segAt i = s.segAt i := rfl

/-! ### modPort -/

@[simp] theorem State.modPort_pending (f : Port → Port) : (s.modPort f).pending = s.pending := rfl
@[simp] theorem State.modPort_mode (f : Port → Port) : (s.modPort f).mode = s.mode := rfl
@[simp] theorem State.modPort_resetHeld (f : Port → Port) : (s.modPort f).resetHeld = s.resetHeld := rfl
@[simp] theorem State.modPort_pos (f : Port → Port) : (s.modPort f).pos = s.pos := rfl
@[simp] theorem State.modPort_link (f : Port → Port) : (s.modPort f).link = s.link := rfl
@[simp] theorem State.modPort_ec (f : Port → Port) : (s.modPort f).ec = s.ec := rfl
@[simp] theorem State.modPort_pool (f : Port → Port) : (s.modPort f).pool = s.pool := rfl
@[simp] theorem State.modPort_lev (f : Port → Port) : (s.modPort f).lev = s.lev := rfl
@[simp] theorem State.modPort_params (f : Port → Port) : (s.modPort f).params = s.params := rfl
@[simp] theorem State.modPort_mix (f : Port → Port) : (s.modPort f).mix = s.mix := rfl
@[simp] theorem State.modPort_clip (f : Port → Port) : (s.modPort f).clip = s.clip := rfl
@[simp] theorem State.modPort_slot (f : Port → Port) : (s.modPort f).slot = s.slot := rfl
@[simp] theorem State.modPort_prog (f : Port → Port) : (s.modPort f).prog = s.prog := rfl
@[simp] theorem State.modPort_queue (f : Port → Port) : (s.modPort f).queue = s.queue := rfl
@[simp] theorem State.modPort_waitList (f : Port → Port) : (s.modPort f).waitList = s.waitList := rfl
@[simp] theorem State.modPort_store (f : Port → Port) : (s.modPort f).store = s.store := rfl
@[simp] theorem State.modPort_tmn (f : Port → Port) : (s.modPort f).tmn = s.tmn := rfl
@[simp] theorem State.modPort_hwy (f : Port → Port) : (s.modPort f).hwy = s.hwy := rfl
@[simp] theorem State.modPort_words (f : Port → Port) : (s.modPort f).words = s.words := rfl
@[simp] theorem State.modPort_port (f : Port → Port) : (s.modPort f).port = f s.port := rfl
@[simp] theorem State.modPort_callQ (f : Port → Port) : (s.modPort f).callQ = s.callQ := rfl
@[simp] theorem State.modPort_floorQ (f : Port → Port) : (s.modPort f).floorQ = s.floorQ := rfl
@[simp] theorem State.modPort_maintQ (f : Port → Port) : (s.modPort f).maintQ = s.maintQ := rfl
@[simp] theorem State.modPort_posAt (f : Port → Port) (i : Nat) : (s.modPort f).posAt i = s.posAt i := rfl
@[simp] theorem State.modPort_linkAt (f : Port → Port) (i : Nat) : (s.modPort f).linkAt i = s.linkAt i := rfl
@[simp] theorem State.modPort_ecAt (f : Port → Port) (i : Nat) : (s.modPort f).ecAt i = s.ecAt i := rfl
@[simp] theorem State.modPort_levAt (f : Port → Port) (i : Nat) : (s.modPort f).levAt i = s.levAt i := rfl
@[simp] theorem State.modPort_mixAt (f : Port → Port) (i : Nat) : (s.modPort f).mixAt i = s.mixAt i := rfl
@[simp] theorem State.modPort_clipAt (f : Port → Port) (i : Nat) : (s.modPort f).clipAt i = s.clipAt i := rfl
@[simp] theorem State.modPort_slotAt (f : Port → Port) (i : Nat) : (s.modPort f).slotAt i = s.slotAt i := rfl
@[simp] theorem State.modPort_progAt (f : Port → Port) (i : Nat) : (s.modPort f).progAt i = s.progAt i := rfl
@[simp] theorem State.modPort_queueAt (f : Port → Port) (i : Nat) : (s.modPort f).queueAt i = s.queueAt i := rfl
@[simp] theorem State.modPort_segsOf (f : Port → Port) (i : Nat) : (s.modPort f).segsOf i = s.segsOf i := rfl
@[simp] theorem State.modPort_segAt (f : Port → Port) (i : Nat) : (s.modPort f).segAt i = s.segAt i := rfl

/-! ### setWords -/

@[simp] theorem State.setWords_pending (n : Nat) : (s.setWords n).pending = s.pending := rfl
@[simp] theorem State.setWords_mode (n : Nat) : (s.setWords n).mode = s.mode := rfl
@[simp] theorem State.setWords_resetHeld (n : Nat) : (s.setWords n).resetHeld = s.resetHeld := rfl
@[simp] theorem State.setWords_pos (n : Nat) : (s.setWords n).pos = s.pos := rfl
@[simp] theorem State.setWords_link (n : Nat) : (s.setWords n).link = s.link := rfl
@[simp] theorem State.setWords_ec (n : Nat) : (s.setWords n).ec = s.ec := rfl
@[simp] theorem State.setWords_pool (n : Nat) : (s.setWords n).pool = s.pool := rfl
@[simp] theorem State.setWords_lev (n : Nat) : (s.setWords n).lev = s.lev := rfl
@[simp] theorem State.setWords_params (n : Nat) : (s.setWords n).params = s.params := rfl
@[simp] theorem State.setWords_mix (n : Nat) : (s.setWords n).mix = s.mix := rfl
@[simp] theorem State.setWords_clip (n : Nat) : (s.setWords n).clip = s.clip := rfl
@[simp] theorem State.setWords_slot (n : Nat) : (s.setWords n).slot = s.slot := rfl
@[simp] theorem State.setWords_prog (n : Nat) : (s.setWords n).prog = s.prog := rfl
@[simp] theorem State.setWords_queue (n : Nat) : (s.setWords n).queue = s.queue := rfl
@[simp] theorem State.setWords_waitList (n : Nat) : (s.setWords n).waitList = s.waitList := rfl
@[simp] theorem State.setWords_store (n : Nat) : (s.setWords n).store = s.store := rfl
@[simp] theorem State.setWords_tmn (n : Nat) : (s.setWords n).tmn = s.tmn := rfl
@[simp] theorem State.setWords_hwy (n : Nat) : (s.setWords n).hwy = s.hwy := rfl
@[simp] theorem State.setWords_words (n : Nat) : (s.setWords n).words = n := rfl
@[simp] theorem State.setWords_port (n : Nat) : (s.setWords n).port = s.port := rfl
@[simp] theorem State.setWords_callQ (n : Nat) : (s.setWords n).callQ = s.callQ := rfl
@[simp] theorem State.setWords_floorQ (n : Nat) : (s.setWords n).floorQ = s.floorQ := rfl
@[simp] theorem State.setWords_maintQ (n : Nat) : (s.setWords n).maintQ = s.maintQ := rfl
@[simp] theorem State.setWords_posAt (n : Nat) (i : Nat) : (s.setWords n).posAt i = s.posAt i := rfl
@[simp] theorem State.setWords_linkAt (n : Nat) (i : Nat) : (s.setWords n).linkAt i = s.linkAt i := rfl
@[simp] theorem State.setWords_ecAt (n : Nat) (i : Nat) : (s.setWords n).ecAt i = s.ecAt i := rfl
@[simp] theorem State.setWords_levAt (n : Nat) (i : Nat) : (s.setWords n).levAt i = s.levAt i := rfl
@[simp] theorem State.setWords_mixAt (n : Nat) (i : Nat) : (s.setWords n).mixAt i = s.mixAt i := rfl
@[simp] theorem State.setWords_clipAt (n : Nat) (i : Nat) : (s.setWords n).clipAt i = s.clipAt i := rfl
@[simp] theorem State.setWords_slotAt (n : Nat) (i : Nat) : (s.setWords n).slotAt i = s.slotAt i := rfl
@[simp] theorem State.setWords_progAt (n : Nat) (i : Nat) : (s.setWords n).progAt i = s.progAt i := rfl
@[simp] theorem State.setWords_queueAt (n : Nat) (i : Nat) : (s.setWords n).queueAt i = s.queueAt i := rfl
@[simp] theorem State.setWords_segsOf (n : Nat) (i : Nat) : (s.setWords n).segsOf i = s.segsOf i := rfl
@[simp] theorem State.setWords_segAt (n : Nat) (i : Nat) : (s.setWords n).segAt i = s.segAt i := rfl

/-! ### Notices -/

@[simp] theorem State.setNotices_pending (r : Role) (q : NoticeQueue) : (s.setNotices r q).pending = s.pending := by
  cases r <;> rfl
@[simp] theorem State.setNotices_mode (r : Role) (q : NoticeQueue) : (s.setNotices r q).mode = s.mode := by
  cases r <;> rfl
@[simp] theorem State.setNotices_resetHeld (r : Role) (q : NoticeQueue) : (s.setNotices r q).resetHeld = s.resetHeld := by
  cases r <;> rfl
@[simp] theorem State.setNotices_pos (r : Role) (q : NoticeQueue) : (s.setNotices r q).pos = s.pos := by
  cases r <;> rfl
@[simp] theorem State.setNotices_link (r : Role) (q : NoticeQueue) : (s.setNotices r q).link = s.link := by
  cases r <;> rfl
@[simp] theorem State.setNotices_ec (r : Role) (q : NoticeQueue) : (s.setNotices r q).ec = s.ec := by
  cases r <;> rfl
@[simp] theorem State.setNotices_pool (r : Role) (q : NoticeQueue) : (s.setNotices r q).pool = s.pool := by
  cases r <;> rfl
@[simp] theorem State.setNotices_lev (r : Role) (q : NoticeQueue) : (s.setNotices r q).lev = s.lev := by
  cases r <;> rfl
@[simp] theorem State.setNotices_params (r : Role) (q : NoticeQueue) : (s.setNotices r q).params = s.params := by
  cases r <;> rfl
@[simp] theorem State.setNotices_mix (r : Role) (q : NoticeQueue) : (s.setNotices r q).mix = s.mix := by
  cases r <;> rfl
@[simp] theorem State.setNotices_clip (r : Role) (q : NoticeQueue) : (s.setNotices r q).clip = s.clip := by
  cases r <;> rfl
@[simp] theorem State.setNotices_slot (r : Role) (q : NoticeQueue) : (s.setNotices r q).slot = s.slot := by
  cases r <;> rfl
@[simp] theorem State.setNotices_prog (r : Role) (q : NoticeQueue) : (s.setNotices r q).prog = s.prog := by
  cases r <;> rfl
@[simp] theorem State.setNotices_queue (r : Role) (q : NoticeQueue) : (s.setNotices r q).queue = s.queue := by
  cases r <;> rfl
@[simp] theorem State.setNotices_waitList (r : Role) (q : NoticeQueue) : (s.setNotices r q).waitList = s.waitList := by
  cases r <;> rfl
@[simp] theorem State.setNotices_store (r : Role) (q : NoticeQueue) : (s.setNotices r q).store = s.store := by
  cases r <;> rfl
@[simp] theorem State.setNotices_tmn (r : Role) (q : NoticeQueue) : (s.setNotices r q).tmn = s.tmn := by
  cases r <;> rfl
@[simp] theorem State.setNotices_hwy (r : Role) (q : NoticeQueue) : (s.setNotices r q).hwy = s.hwy := by
  cases r <;> rfl
@[simp] theorem State.setNotices_words (r : Role) (q : NoticeQueue) : (s.setNotices r q).words = s.words := by
  cases r <;> rfl
@[simp] theorem State.setNotices_port (r : Role) (q : NoticeQueue) : (s.setNotices r q).port = s.port := by
  cases r <;> rfl

/-- The queue of one role after one queue was replaced. -/
@[simp] theorem State.setNotices_noticesOf (r r' : Role) (q : NoticeQueue) :
    (s.setNotices r q).noticesOf r' = if r = r' then q else s.noticesOf r' := by
  cases r <;> cases r' <;> rfl

@[simp] theorem State.post_pending (r : Role) (k : NoticeKind) (p u : Option Nat) (c : Option Cause) (v : Option Nat) :
    (s.post r k p u c v).pending = s.pending := by
  cases r <;> rfl
@[simp] theorem State.post_mode (r : Role) (k : NoticeKind) (p u : Option Nat) (c : Option Cause) (v : Option Nat) :
    (s.post r k p u c v).mode = s.mode := by
  cases r <;> rfl
@[simp] theorem State.post_resetHeld (r : Role) (k : NoticeKind) (p u : Option Nat) (c : Option Cause) (v : Option Nat) :
    (s.post r k p u c v).resetHeld = s.resetHeld := by
  cases r <;> rfl
@[simp] theorem State.post_pos (r : Role) (k : NoticeKind) (p u : Option Nat) (c : Option Cause) (v : Option Nat) :
    (s.post r k p u c v).pos = s.pos := by
  cases r <;> rfl
@[simp] theorem State.post_link (r : Role) (k : NoticeKind) (p u : Option Nat) (c : Option Cause) (v : Option Nat) :
    (s.post r k p u c v).link = s.link := by
  cases r <;> rfl
@[simp] theorem State.post_ec (r : Role) (k : NoticeKind) (p u : Option Nat) (c : Option Cause) (v : Option Nat) :
    (s.post r k p u c v).ec = s.ec := by
  cases r <;> rfl
@[simp] theorem State.post_pool (r : Role) (k : NoticeKind) (p u : Option Nat) (c : Option Cause) (v : Option Nat) :
    (s.post r k p u c v).pool = s.pool := by
  cases r <;> rfl
@[simp] theorem State.post_lev (r : Role) (k : NoticeKind) (p u : Option Nat) (c : Option Cause) (v : Option Nat) :
    (s.post r k p u c v).lev = s.lev := by
  cases r <;> rfl
@[simp] theorem State.post_params (r : Role) (k : NoticeKind) (p u : Option Nat) (c : Option Cause) (v : Option Nat) :
    (s.post r k p u c v).params = s.params := by
  cases r <;> rfl
@[simp] theorem State.post_mix (r : Role) (k : NoticeKind) (p u : Option Nat) (c : Option Cause) (v : Option Nat) :
    (s.post r k p u c v).mix = s.mix := by
  cases r <;> rfl
@[simp] theorem State.post_clip (r : Role) (k : NoticeKind) (p u : Option Nat) (c : Option Cause) (v : Option Nat) :
    (s.post r k p u c v).clip = s.clip := by
  cases r <;> rfl
@[simp] theorem State.post_slot (r : Role) (k : NoticeKind) (p u : Option Nat) (c : Option Cause) (v : Option Nat) :
    (s.post r k p u c v).slot = s.slot := by
  cases r <;> rfl
@[simp] theorem State.post_prog (r : Role) (k : NoticeKind) (p u : Option Nat) (c : Option Cause) (v : Option Nat) :
    (s.post r k p u c v).prog = s.prog := by
  cases r <;> rfl
@[simp] theorem State.post_queue (r : Role) (k : NoticeKind) (p u : Option Nat) (c : Option Cause) (v : Option Nat) :
    (s.post r k p u c v).queue = s.queue := by
  cases r <;> rfl
@[simp] theorem State.post_waitList (r : Role) (k : NoticeKind) (p u : Option Nat) (c : Option Cause) (v : Option Nat) :
    (s.post r k p u c v).waitList = s.waitList := by
  cases r <;> rfl
@[simp] theorem State.post_store (r : Role) (k : NoticeKind) (p u : Option Nat) (c : Option Cause) (v : Option Nat) :
    (s.post r k p u c v).store = s.store := by
  cases r <;> rfl
@[simp] theorem State.post_tmn (r : Role) (k : NoticeKind) (p u : Option Nat) (c : Option Cause) (v : Option Nat) :
    (s.post r k p u c v).tmn = s.tmn := by
  cases r <;> rfl
@[simp] theorem State.post_hwy (r : Role) (k : NoticeKind) (p u : Option Nat) (c : Option Cause) (v : Option Nat) :
    (s.post r k p u c v).hwy = s.hwy := by
  cases r <;> rfl
@[simp] theorem State.post_words (r : Role) (k : NoticeKind) (p u : Option Nat) (c : Option Cause) (v : Option Nat) :
    (s.post r k p u c v).words = s.words := by
  cases r <;> rfl
@[simp] theorem State.post_port (r : Role) (k : NoticeKind) (p u : Option Nat) (c : Option Cause) (v : Option Nat) :
    (s.post r k p u c v).port = s.port := by
  cases r <;> rfl
@[simp] theorem State.post_posAt (r : Role) (k : NoticeKind) (p u : Option Nat) (c : Option Cause) (v : Option Nat) (i : Nat) :
    (s.post r k p u c v).posAt i = s.posAt i := by
  cases r <;> rfl
@[simp] theorem State.post_linkAt (r : Role) (k : NoticeKind) (p u : Option Nat) (c : Option Cause) (v : Option Nat) (i : Nat) :
    (s.post r k p u c v).linkAt i = s.linkAt i := by
  cases r <;> rfl
@[simp] theorem State.post_ecAt (r : Role) (k : NoticeKind) (p u : Option Nat) (c : Option Cause) (v : Option Nat) (i : Nat) :
    (s.post r k p u c v).ecAt i = s.ecAt i := by
  cases r <;> rfl
@[simp] theorem State.post_levAt (r : Role) (k : NoticeKind) (p u : Option Nat) (c : Option Cause) (v : Option Nat) (i : Nat) :
    (s.post r k p u c v).levAt i = s.levAt i := by
  cases r <;> rfl
@[simp] theorem State.post_mixAt (r : Role) (k : NoticeKind) (p u : Option Nat) (c : Option Cause) (v : Option Nat) (i : Nat) :
    (s.post r k p u c v).mixAt i = s.mixAt i := by
  cases r <;> rfl
@[simp] theorem State.post_clipAt (r : Role) (k : NoticeKind) (p u : Option Nat) (c : Option Cause) (v : Option Nat) (i : Nat) :
    (s.post r k p u c v).clipAt i = s.clipAt i := by
  cases r <;> rfl
@[simp] theorem State.post_slotAt (r : Role) (k : NoticeKind) (p u : Option Nat) (c : Option Cause) (v : Option Nat) (i : Nat) :
    (s.post r k p u c v).slotAt i = s.slotAt i := by
  cases r <;> rfl
@[simp] theorem State.post_progAt (r : Role) (k : NoticeKind) (p u : Option Nat) (c : Option Cause) (v : Option Nat) (i : Nat) :
    (s.post r k p u c v).progAt i = s.progAt i := by
  cases r <;> rfl
@[simp] theorem State.post_queueAt (r : Role) (k : NoticeKind) (p u : Option Nat) (c : Option Cause) (v : Option Nat) (i : Nat) :
    (s.post r k p u c v).queueAt i = s.queueAt i := by
  cases r <;> rfl
@[simp] theorem State.post_segsOf (r : Role) (k : NoticeKind) (p u : Option Nat) (c : Option Cause) (v : Option Nat) (i : Nat) :
    (s.post r k p u c v).segsOf i = s.segsOf i := by
  cases r <;> rfl
@[simp] theorem State.post_segAt (r : Role) (k : NoticeKind) (p u : Option Nat) (c : Option Cause) (v : Option Nat) (i : Nat) :
    (s.post r k p u c v).segAt i = s.segAt i := by
  cases r <;> rfl

/-- A post reaches the queue of its role alone: one record more at its tail, or the overflow flag (R193). -/
@[simp] theorem State.post_noticesOf (r : Role) (k : NoticeKind) (p u : Option Nat) (c : Option Cause) (v : Option Nat) (r' : Role) :
    (s.post r k p u c v).noticesOf r' =
      if r = r' then
        (s.noticesOf r').push
          { kind := k, position := p, subject := u, cause := c, value := v, stamp := s.tmn.blockCount } s.resetHeld
      else s.noticesOf r' := by
  cases r <;> cases r' <;> rfl

@[simp] theorem State.modPos_noticesOf (p : Nat) (f : Position → Position) (r : Role) : (s.modPos p f).noticesOf r = s.noticesOf r := by
  cases r <;> rfl
@[simp] theorem State.modLink_noticesOf (p : Nat) (f : Link → Link) (r : Role) : (s.modLink p f).noticesOf r = s.noticesOf r := by
  cases r <;> rfl
@[simp] theorem State.modEc_noticesOf (p : Nat) (f : Canceller → Canceller) (r : Role) : (s.modEc p f).noticesOf r = s.noticesOf r := by
  cases r <;> rfl
@[simp] theorem State.modLev_noticesOf (p : Nat) (f : Level → Level) (r : Role) : (s.modLev p f).noticesOf r = s.noticesOf r := by
  cases r <;> rfl
@[simp] theorem State.modMix_noticesOf (p : Nat) (f : Mix → Mix) (r : Role) : (s.modMix p f).noticesOf r = s.noticesOf r := by
  cases r <;> rfl
@[simp] theorem State.modClip_noticesOf (p : Nat) (f : Clip → Clip) (r : Role) : (s.modClip p f).noticesOf r = s.noticesOf r := by
  cases r <;> rfl
@[simp] theorem State.modSlot_noticesOf (p : Nat) (f : Slot → Slot) (r : Role) : (s.modSlot p f).noticesOf r = s.noticesOf r := by
  cases r <;> rfl
@[simp] theorem State.modProg_noticesOf (p : Nat) (f : Programme → Programme) (r : Role) : (s.modProg p f).noticesOf r = s.noticesOf r := by
  cases r <;> rfl
@[simp] theorem State.setQueue_noticesOf (p : Nat) (q : List WhisperItem) (r : Role) : (s.setQueue p q).noticesOf r = s.noticesOf r := by
  cases r <;> rfl
@[simp] theorem State.modSegs_noticesOf (p : Nat) (f : List Nat → List Nat) (r : Role) : (s.modSegs p f).noticesOf r = s.noticesOf r := by
  cases r <;> rfl
@[simp] theorem State.modSeg_noticesOf (g : Nat) (f : Segment → Segment) (r : Role) : (s.modSeg g f).noticesOf r = s.noticesOf r := by
  cases r <;> rfl
@[simp] theorem State.setShort_noticesOf (l : List Nat) (r : Role) : (s.setShort l).noticesOf r = s.noticesOf r := by
  cases r <;> rfl
@[simp] theorem State.setWait_noticesOf (l : List Nat) (r : Role) : (s.setWait l).noticesOf r = s.noticesOf r := by
  cases r <;> rfl
@[simp] theorem State.modStore_noticesOf (f : Store → Store) (r : Role) : (s.modStore f).noticesOf r = s.noticesOf r := by
  cases r <;> rfl
@[simp] theorem State.modTmn_noticesOf (f : Timing → Timing) (r : Role) : (s.modTmn f).noticesOf r = s.noticesOf r := by
  cases r <;> rfl
@[simp] theorem State.modPort_noticesOf (f : Port → Port) (r : Role) : (s.modPort f).noticesOf r = s.noticesOf r := by
  cases r <;> rfl
@[simp] theorem State.setWords_noticesOf (n : Nat) (r : Role) : (s.setWords n).noticesOf r = s.noticesOf r := by
  cases r <;> rfl

/-! ### An accepted frame and its reply -/

@[simp] theorem State.accepted_pending : s.accepted.pending = s.pending := rfl
@[simp] theorem State.owe_pending (st : Station) (c : Byte) (a : Answer) : (s.owe st c a).pending = s.pending := rfl
@[simp] theorem State.accepted_mode : s.accepted.mode = s.mode := rfl
@[simp] theorem State.owe_mode (st : Station) (c : Byte) (a : Answer) : (s.owe st c a).mode = s.mode := rfl
@[simp] theorem State.accepted_resetHeld : s.accepted.resetHeld = s.resetHeld := rfl
@[simp] theorem State.owe_resetHeld (st : Station) (c : Byte) (a : Answer) : (s.owe st c a).resetHeld = s.resetHeld := rfl
@[simp] theorem State.accepted_pos : s.accepted.pos = s.pos := rfl
@[simp] theorem State.owe_pos (st : Station) (c : Byte) (a : Answer) : (s.owe st c a).pos = s.pos := rfl
@[simp] theorem State.accepted_link : s.accepted.link = s.link := rfl
@[simp] theorem State.owe_link (st : Station) (c : Byte) (a : Answer) : (s.owe st c a).link = s.link := rfl
@[simp] theorem State.accepted_ec : s.accepted.ec = s.ec := rfl
@[simp] theorem State.owe_ec (st : Station) (c : Byte) (a : Answer) : (s.owe st c a).ec = s.ec := rfl
@[simp] theorem State.accepted_pool : s.accepted.pool = s.pool := rfl
@[simp] theorem State.owe_pool (st : Station) (c : Byte) (a : Answer) : (s.owe st c a).pool = s.pool := rfl
@[simp] theorem State.accepted_lev : s.accepted.lev = s.lev := rfl
@[simp] theorem State.owe_lev (st : Station) (c : Byte) (a : Answer) : (s.owe st c a).lev = s.lev := rfl
@[simp] theorem State.accepted_params : s.accepted.params = s.params := rfl
@[simp] theorem State.owe_params (st : Station) (c : Byte) (a : Answer) : (s.owe st c a).params = s.params := rfl
@[simp] theorem State.accepted_mix : s.accepted.mix = s.mix := rfl
@[simp] theorem State.owe_mix (st : Station) (c : Byte) (a : Answer) : (s.owe st c a).mix = s.mix := rfl
@[simp] theorem State.accepted_clip : s.accepted.clip = s.clip := rfl
@[simp] theorem State.owe_clip (st : Station) (c : Byte) (a : Answer) : (s.owe st c a).clip = s.clip := rfl
@[simp] theorem State.accepted_slot : s.accepted.slot = s.slot := rfl
@[simp] theorem State.owe_slot (st : Station) (c : Byte) (a : Answer) : (s.owe st c a).slot = s.slot := rfl
@[simp] theorem State.accepted_prog : s.accepted.prog = s.prog := rfl
@[simp] theorem State.owe_prog (st : Station) (c : Byte) (a : Answer) : (s.owe st c a).prog = s.prog := rfl
@[simp] theorem State.accepted_queue : s.accepted.queue = s.queue := rfl
@[simp] theorem State.owe_queue (st : Station) (c : Byte) (a : Answer) : (s.owe st c a).queue = s.queue := rfl
@[simp] theorem State.accepted_waitList : s.accepted.waitList = s.waitList := rfl
@[simp] theorem State.owe_waitList (st : Station) (c : Byte) (a : Answer) : (s.owe st c a).waitList = s.waitList := rfl
@[simp] theorem State.accepted_tmn : s.accepted.tmn = s.tmn := rfl
@[simp] theorem State.owe_tmn (st : Station) (c : Byte) (a : Answer) : (s.owe st c a).tmn = s.tmn := rfl
@[simp] theorem State.accepted_hwy : s.accepted.hwy = s.hwy := rfl
@[simp] theorem State.owe_hwy (st : Station) (c : Byte) (a : Answer) : (s.owe st c a).hwy = s.hwy := rfl
@[simp] theorem State.accepted_words : s.accepted.words = s.words := rfl
@[simp] theorem State.owe_words (st : Station) (c : Byte) (a : Answer) : (s.owe st c a).words = s.words := rfl
@[simp] theorem State.accepted_callQ : s.accepted.callQ = s.callQ := rfl
@[simp] theorem State.owe_callQ (st : Station) (c : Byte) (a : Answer) : (s.owe st c a).callQ = s.callQ := rfl
@[simp] theorem State.accepted_floorQ : s.accepted.floorQ = s.floorQ := rfl
@[simp] theorem State.owe_floorQ (st : Station) (c : Byte) (a : Answer) : (s.owe st c a).floorQ = s.floorQ := rfl
@[simp] theorem State.accepted_maintQ : s.accepted.maintQ = s.maintQ := rfl
@[simp] theorem State.owe_maintQ (st : Station) (c : Byte) (a : Answer) : (s.owe st c a).maintQ = s.maintQ := rfl
@[simp] theorem State.accepted_port : s.accepted.port = { s.port.toSleep with quiet := 0, coming := none, owed := none } := rfl
@[simp] theorem State.accepted_store : s.accepted.store = s.store.dropRead := rfl
@[simp] theorem State.owe_store (st : Station) (c : Byte) (a : Answer) : (s.owe st c a).store = s.store := rfl
@[simp] theorem State.owe_port (st : Station) (c : Byte) (a : Answer) :
    (s.owe st c a).port =
      { s.port with
        owed := some { station := st, code := c, status := a.status, clamped := a.clamped, data := a.data,
                       waiting := a.waiting, clock := 0 } } := rfl
@[simp] theorem State.accepted_noticesOf (r : Role) : s.accepted.noticesOf r = s.noticesOf r := by cases r <;> rfl
@[simp] theorem State.owe_noticesOf (st : Station) (c : Byte) (a : Answer) (r : Role) :
    (s.owe st c a).noticesOf r = s.noticesOf r := by cases r <;> rfl
@[simp] theorem State.accepted_posAt (i : Nat) : s.accepted.posAt i = s.posAt i := rfl
@[simp] theorem State.owe_posAt (st : Station) (c : Byte) (a : Answer) (i : Nat) : (s.owe st c a).posAt i = s.posAt i := rfl
@[simp] theorem State.accepted_linkAt (i : Nat) : s.accepted.linkAt i = s.linkAt i := rfl
@[simp] theorem State.owe_linkAt (st : Station) (c : Byte) (a : Answer) (i : Nat) : (s.owe st c a).linkAt i = s.linkAt i := rfl
@[simp] theorem State.accepted_ecAt (i : Nat) : s.accepted.ecAt i = s.ecAt i := rfl
@[simp] theorem State.owe_ecAt (st : Station) (c : Byte) (a : Answer) (i : Nat) : (s.owe st c a).ecAt i = s.ecAt i := rfl
@[simp] theorem State.accepted_levAt (i : Nat) : s.accepted.levAt i = s.levAt i := rfl
@[simp] theorem State.owe_levAt (st : Station) (c : Byte) (a : Answer) (i : Nat) : (s.owe st c a).levAt i = s.levAt i := rfl
@[simp] theorem State.accepted_mixAt (i : Nat) : s.accepted.mixAt i = s.mixAt i := rfl
@[simp] theorem State.owe_mixAt (st : Station) (c : Byte) (a : Answer) (i : Nat) : (s.owe st c a).mixAt i = s.mixAt i := rfl
@[simp] theorem State.accepted_clipAt (i : Nat) : s.accepted.clipAt i = s.clipAt i := rfl
@[simp] theorem State.owe_clipAt (st : Station) (c : Byte) (a : Answer) (i : Nat) : (s.owe st c a).clipAt i = s.clipAt i := rfl
@[simp] theorem State.accepted_slotAt (i : Nat) : s.accepted.slotAt i = s.slotAt i := rfl
@[simp] theorem State.owe_slotAt (st : Station) (c : Byte) (a : Answer) (i : Nat) : (s.owe st c a).slotAt i = s.slotAt i := rfl
@[simp] theorem State.accepted_progAt (i : Nat) : s.accepted.progAt i = s.progAt i := rfl
@[simp] theorem State.owe_progAt (st : Station) (c : Byte) (a : Answer) (i : Nat) : (s.owe st c a).progAt i = s.progAt i := rfl
@[simp] theorem State.accepted_queueAt (i : Nat) : s.accepted.queueAt i = s.queueAt i := rfl
@[simp] theorem State.owe_queueAt (st : Station) (c : Byte) (a : Answer) (i : Nat) : (s.owe st c a).queueAt i = s.queueAt i := rfl
@[simp] theorem State.accepted_segsOf (i : Nat) : s.accepted.segsOf i = s.segsOf i := rfl
@[simp] theorem State.owe_segsOf (st : Station) (c : Byte) (a : Answer) (i : Nat) : (s.owe st c a).segsOf i = s.segsOf i := rfl
@[simp] theorem State.accepted_segAt (i : Nat) : s.accepted.segAt i = s.segAt i := rfl
@[simp] theorem State.owe_segAt (st : Station) (c : Byte) (a : Answer) (i : Nat) : (s.owe st c a).segAt i = s.segAt i := rfl

end

end Sys2Proof.Machine
end

