-- ==== Sys2Proof/Laws/Fold.lean ====
section
/-! SUPPORT. The laws of going through the positions, the slots or the clips in order: what every turn keeps stands at
the end; and where turn `p` changes entry `p` alone, the end holds the change of every entry. -/

namespace Sys2Proof.Machine

/-- What each turn of a fold over a range keeps stands at its end. -/
theorem foldl_range_keeps (P : State → Prop) (f : Nat → State → State) (n : Nat)
    (h : ∀ p s, p < n → P s → P (f p s)) (s : State) (hs : P s) :
    P ((List.range n).foldl (fun s p => f p s) s) := by
  have key : ∀ l : List Nat, (∀ p ∈ l, p < n) → ∀ s, P s → P (l.foldl (fun s p => f p s) s) := by
    intro l
    induction l with
    | nil => intro _ s hs; exact hs
    | cons p l ih => exact fun hl s hs => ih (fun q hq => hl q (by simp [hq])) _ (h p s (hl p (by simp)) hs)
  exact key _ (by simp) s hs

/-- Where turn `p` makes `P p` true and later turns keep it, every `P q` is true at the end. -/
theorem foldl_range_each (P : Nat → State → Prop) (f : Nat → State → State) (n : Nat)
    (hown : ∀ p s, p < n → P p (f p s)) (hkeep : ∀ p q s, q ≠ p → P q s → P q (f p s)) (s : State) (q : Nat)
    (hq : q < n) : P q ((List.range n).foldl (fun s p => f p s) s) := by
  induction n with
  | zero => omega
  | succ m ih =>
    rw [List.range_succ, List.foldl_append]
    by_cases h : q = m
    · subst h; exact hown q _ (by omega)
    · exact hkeep m q _ h (ih (fun p s hp => hown p s (by omega)) (by omega))

/-- Where turn `p` changes entry `p` alone, under a condition `C` that every turn keeps, each entry is changed once. -/
theorem foldl_range_entry {α : Type} (get : State → Nat → α) (C : State → Prop) (f : Nat → State → State)
    (g : Nat → α → α) (n : Nat) (hC : ∀ p s, C s → C (f p s))
    (hother : ∀ p q s, q ≠ p → get (f p s) q = get s q)
    (hown : ∀ p s, p < n → C s → get (f p s) p = g p (get s p)) (s : State) (hs : C s) (q : Nat) :
    get ((List.range n).foldl (fun s p => f p s) s) q = if q < n then g q (get s q) else get s q := by
  induction n with
  | zero => simp
  | succ m ih =>
    have ih' := ih (fun p s hp => hown p s (by omega))
    have hCm : C ((List.range m).foldl (fun s p => f p s) s) :=
      foldl_range_keeps C f m (fun p s _ => hC p s) s hs
    rw [List.range_succ, List.foldl_append]
    simp only [List.foldl_cons, List.foldl_nil]
    by_cases h : q = m
    · subst h
      rw [hown q _ (by omega) hCm, ih']; simp
    · rw [hother m q _ h, ih']
      have : (q < m + 1) = (q < m) := by simp; omega
      simp [this]

/-- What each position's turn keeps stands after all sixteen. -/
theorem forPositions_keeps (P : State → Prop) (f : Nat → State → State) (h : ∀ p s, p < 16 → P s → P (f p s))
    (s : State) (hs : P s) : P (forPositions f s) := foldl_range_keeps P f 16 h s hs

/-- What each slot's turn keeps stands after all 24. -/
theorem forSlots_keeps (P : State → Prop) (f : Nat → State → State) (h : ∀ i s, i < 24 → P s → P (f i s))
    (s : State) (hs : P s) : P (forSlots f s) := foldl_range_keeps P f 24 h s hs

/-- What each clip's turn keeps stands after all 128. -/
theorem forClips_keeps (P : State → Prop) (f : Nat → State → State) (h : ∀ c s, c < 128 → P s → P (f c s))
    (s : State) (hs : P s) : P (forClips f s) := foldl_range_keeps P f 128 h s hs

/-- A field that no position's turn changes. -/
theorem forPositions_field {α : Type} (get : State → α) (f : Nat → State → State)
    (h : ∀ p s, get (f p s) = get s) (s : State) : get (forPositions f s) = get s :=
  forPositions_keeps (fun t => get t = get s) f (fun p t _ ht => by rw [h, ht]) s rfl

/-- A field that no slot's turn changes. -/
theorem forSlots_field {α : Type} (get : State → α) (f : Nat → State → State)
    (h : ∀ i s, get (f i s) = get s) (s : State) : get (forSlots f s) = get s :=
  forSlots_keeps (fun t => get t = get s) f (fun i t _ ht => by rw [h, ht]) s rfl

/-- A field that no clip's turn changes. -/
theorem forClips_field {α : Type} (get : State → α) (f : Nat → State → State)
    (h : ∀ c s, get (f c s) = get s) (s : State) : get (forClips f s) = get s :=
  forClips_keeps (fun t => get t = get s) f (fun c t _ ht => by rw [h, ht]) s rfl

/-- Each position's entry is changed by its own turn alone. -/
theorem forPositions_entry {α : Type} (get : State → Nat → α) (C : State → Prop) (f : Nat → State → State)
    (g : Nat → α → α) (hC : ∀ p s, C s → C (f p s)) (hother : ∀ p q s, q ≠ p → get (f p s) q = get s q)
    (hown : ∀ p s, p < 16 → C s → get (f p s) p = g p (get s p)) (s : State) (hs : C s) (q : Nat) :
    get (forPositions f s) q = if q < 16 then g q (get s q) else get s q :=
  foldl_range_entry get C f g 16 hC hother hown s hs q

/-- Each clip's entry is changed by its own turn alone. -/
theorem forClips_entry {α : Type} (get : State → Nat → α) (C : State → Prop) (f : Nat → State → State)
    (g : Nat → α → α) (hC : ∀ p s, C s → C (f p s)) (hother : ∀ p q s, q ≠ p → get (f p s) q = get s q)
    (hown : ∀ p s, p < 128 → C s → get (f p s) p = g p (get s p)) (s : State) (hs : C s) (q : Nat) :
    get (forClips f s) q = if q < 128 then g q (get s q) else get s q :=
  foldl_range_entry get C f g 128 hC hother hown s hs q

end Sys2Proof.Machine
end

