-- ==== Sys2Proof/Laws/Frames.lean ====
section
/-! SUPPORT. What each shared operation leaves: for each one, every field of State that it does not touch. A proof about
such a field rewrites with these and never unfolds the operation. -/

namespace Sys2Proof.Machine

/-! ### Playback (chapter 7) -/

/-- What `useUp` leaves. -/
@[simp] theorem useUp_keeps (c : Nat) (s : State) :
    (useUp c s).pending = s.pending ∧ (useUp c s).mode = s.mode ∧ (useUp c s).resetHeld = s.resetHeld ∧
    (useUp c s).pos = s.pos ∧ (useUp c s).link = s.link ∧ (useUp c s).ec = s.ec ∧ (useUp c s).pool = s.pool ∧
    (useUp c s).lev = s.lev ∧ (useUp c s).params = s.params ∧ (useUp c s).mix = s.mix ∧
    (useUp c s).slot = s.slot ∧ (useUp c s).prog = s.prog ∧ (useUp c s).queue = s.queue ∧
    (useUp c s).waitList = s.waitList ∧ (useUp c s).store = s.store ∧ (useUp c s).tmn = s.tmn ∧
    (useUp c s).hwy = s.hwy ∧ (useUp c s).words = s.words ∧ (useUp c s).port = s.port ∧
    (useUp c s).callQ = s.callQ ∧ (useUp c s).floorQ = s.floorQ ∧ (useUp c s).maintQ = s.maintQ := by
  unfold useUp
  try dsimp only
  repeat' apply And.intro
  all_goals simp

/-- What `useDown` leaves. -/
@[simp] theorem useDown_keeps (c : Nat) (s : State) :
    (useDown c s).pending = s.pending ∧ (useDown c s).mode = s.mode ∧ (useDown c s).resetHeld = s.resetHeld ∧
    (useDown c s).pos = s.pos ∧ (useDown c s).link = s.link ∧ (useDown c s).ec = s.ec ∧
    (useDown c s).pool = s.pool ∧ (useDown c s).lev = s.lev ∧ (useDown c s).params = s.params ∧
    (useDown c s).mix = s.mix ∧ (useDown c s).slot = s.slot ∧ (useDown c s).prog = s.prog ∧
    (useDown c s).queue = s.queue ∧ (useDown c s).waitList = s.waitList ∧ (useDown c s).store = s.store ∧
    (useDown c s).tmn = s.tmn ∧ (useDown c s).hwy = s.hwy ∧ (useDown c s).words = s.words ∧
    (useDown c s).port = s.port := by
  unfold useDown
  try dsimp only
  repeat' apply And.intro
  all_goals (repeat' split) <;> simp

/-- What `startStream` leaves. -/
@[simp] theorem startStream_keeps (i : Nat) (k : StreamKind) (t c g : Nat) (r : Option Nat) (h : Option Bool) (s : State) :
    (startStream i k t c g r h s).pending = s.pending ∧ (startStream i k t c g r h s).mode = s.mode ∧
    (startStream i k t c g r h s).resetHeld = s.resetHeld ∧ (startStream i k t c g r h s).pos = s.pos ∧
    (startStream i k t c g r h s).link = s.link ∧ (startStream i k t c g r h s).ec = s.ec ∧
    (startStream i k t c g r h s).pool = s.pool ∧ (startStream i k t c g r h s).lev = s.lev ∧
    (startStream i k t c g r h s).params = s.params ∧ (startStream i k t c g r h s).mix = s.mix ∧
    (startStream i k t c g r h s).prog = s.prog ∧ (startStream i k t c g r h s).queue = s.queue ∧
    (startStream i k t c g r h s).waitList = s.waitList ∧ (startStream i k t c g r h s).store = s.store ∧
    (startStream i k t c g r h s).tmn = s.tmn ∧ (startStream i k t c g r h s).hwy = s.hwy ∧
    (startStream i k t c g r h s).words = s.words ∧ (startStream i k t c g r h s).port = s.port ∧
    (startStream i k t c g r h s).callQ = s.callQ ∧ (startStream i k t c g r h s).floorQ = s.floorQ ∧
    (startStream i k t c g r h s).maintQ = s.maintQ := by
  unfold startStream
  try dsimp only
  repeat' apply And.intro
  all_goals (repeat' split) <;> simp

/-- What `stopSlot` leaves. -/
@[simp] theorem stopSlot_keeps (i : Nat) (c : Cause) (s : State) :
    (stopSlot i c s).pending = s.pending ∧ (stopSlot i c s).mode = s.mode ∧
    (stopSlot i c s).resetHeld = s.resetHeld ∧ (stopSlot i c s).pos = s.pos ∧ (stopSlot i c s).link = s.link ∧
    (stopSlot i c s).ec = s.ec ∧ (stopSlot i c s).pool = s.pool ∧ (stopSlot i c s).lev = s.lev ∧
    (stopSlot i c s).params = s.params ∧ (stopSlot i c s).mix = s.mix ∧ (stopSlot i c s).clip = s.clip ∧
    (stopSlot i c s).prog = s.prog ∧ (stopSlot i c s).queue = s.queue ∧
    (stopSlot i c s).waitList = s.waitList ∧ (stopSlot i c s).store = s.store ∧ (stopSlot i c s).tmn = s.tmn ∧
    (stopSlot i c s).hwy = s.hwy ∧ (stopSlot i c s).words = s.words ∧ (stopSlot i c s).port = s.port ∧
    (stopSlot i c s).callQ = s.callQ ∧ (stopSlot i c s).floorQ = s.floorQ ∧
    (stopSlot i c s).maintQ = s.maintQ := by
  unfold stopSlot
  try dsimp only
  repeat' apply And.intro
  all_goals simp

/-- What `startHead` leaves. -/
@[simp] theorem startHead_keeps (p i : Nat) (l : List WhisperItem) (s : State) :
    (startHead p i l s).2.pending = s.pending ∧ (startHead p i l s).2.mode = s.mode ∧
    (startHead p i l s).2.resetHeld = s.resetHeld ∧ (startHead p i l s).2.pos = s.pos ∧
    (startHead p i l s).2.link = s.link ∧ (startHead p i l s).2.ec = s.ec ∧ (startHead p i l s).2.pool = s.pool ∧
    (startHead p i l s).2.lev = s.lev ∧ (startHead p i l s).2.params = s.params ∧ (startHead p i l s).2.mix = s.mix ∧
    (startHead p i l s).2.prog = s.prog ∧ (startHead p i l s).2.waitList = s.waitList ∧
    (startHead p i l s).2.store = s.store ∧ (startHead p i l s).2.tmn = s.tmn ∧ (startHead p i l s).2.hwy = s.hwy ∧
    (startHead p i l s).2.words = s.words ∧ (startHead p i l s).2.port = s.port := by
  induction l generalizing s with
  | nil => simp [startHead]
  | cons it rest ih =>
    by_cases h : s.whisperUsable it.clip
    · simp [startHead, h]
    · simp only [startHead, h]
      obtain ⟨h1, h2⟩ := And.intro (ih (s.post .floor .whisperEnded (some p) (some it.clip) (some .unavailable) none)) trivial
      simpa using h1

/-- What `serveWaiting` leaves. -/
@[simp] theorem serveWaiting_keeps (i : Nat) (l : List Nat) (s : State) :
    (serveWaiting i l s).pending = s.pending ∧ (serveWaiting i l s).mode = s.mode ∧
    (serveWaiting i l s).resetHeld = s.resetHeld ∧ (serveWaiting i l s).pos = s.pos ∧
    (serveWaiting i l s).link = s.link ∧ (serveWaiting i l s).ec = s.ec ∧ (serveWaiting i l s).pool = s.pool ∧
    (serveWaiting i l s).lev = s.lev ∧ (serveWaiting i l s).params = s.params ∧
    (serveWaiting i l s).mix = s.mix ∧ (serveWaiting i l s).prog = s.prog ∧
    (serveWaiting i l s).store = s.store ∧ (serveWaiting i l s).tmn = s.tmn ∧
    (serveWaiting i l s).hwy = s.hwy ∧ (serveWaiting i l s).words = s.words ∧
    (serveWaiting i l s).port = s.port := by
  induction l generalizing s with
  | nil => simp [serveWaiting]
  | cons p ps ih =>
    have hk := startHead_keeps p i (s.queueAt p) (s.setWait ps)
    unfold serveWaiting
    revert hk
    rcases startHead p i (s.queueAt p) (s.setWait ps) with ⟨b, t⟩
    cases b
    all_goals (intro hk; simp at hk; simp [ih, hk])

/-- What `headReady` leaves. -/
@[simp] theorem headReady_keeps (p : Nat) (s : State) :
    (headReady p s).pending = s.pending ∧ (headReady p s).mode = s.mode ∧
    (headReady p s).resetHeld = s.resetHeld ∧ (headReady p s).pos = s.pos ∧ (headReady p s).link = s.link ∧
    (headReady p s).ec = s.ec ∧ (headReady p s).pool = s.pool ∧ (headReady p s).lev = s.lev ∧
    (headReady p s).params = s.params ∧ (headReady p s).mix = s.mix ∧ (headReady p s).prog = s.prog ∧
    (headReady p s).store = s.store ∧ (headReady p s).tmn = s.tmn ∧ (headReady p s).hwy = s.hwy ∧
    (headReady p s).words = s.words ∧ (headReady p s).port = s.port := by
  unfold headReady
  split
  · simp
  · cases hfree : s.freeSlot with
    | none => simp
    | some i =>
      dsimp only
      have hk := startHead_keeps p i (s.queueAt p) s
      revert hk
      rcases startHead p i (s.queueAt p) s with ⟨b, t⟩
      cases b <;> intro hk <;> (simp at hk; simp [hk])

/-- What `postEnded` leaves. -/
@[simp] theorem postEnded_keeps (x : Slot) (c : Cause) (s : State) :
    (postEnded x c s).pending = s.pending ∧ (postEnded x c s).mode = s.mode ∧
    (postEnded x c s).resetHeld = s.resetHeld ∧ (postEnded x c s).pos = s.pos ∧
    (postEnded x c s).link = s.link ∧ (postEnded x c s).ec = s.ec ∧ (postEnded x c s).pool = s.pool ∧
    (postEnded x c s).lev = s.lev ∧ (postEnded x c s).params = s.params ∧ (postEnded x c s).mix = s.mix ∧
    (postEnded x c s).clip = s.clip ∧ (postEnded x c s).slot = s.slot ∧ (postEnded x c s).prog = s.prog ∧
    (postEnded x c s).queue = s.queue ∧ (postEnded x c s).waitList = s.waitList ∧
    (postEnded x c s).store = s.store ∧ (postEnded x c s).tmn = s.tmn ∧ (postEnded x c s).hwy = s.hwy ∧
    (postEnded x c s).words = s.words ∧ (postEnded x c s).port = s.port := by
  unfold postEnded
  try dsimp only
  repeat' apply And.intro
  all_goals (repeat' split) <;> simp

/-- What `dropFetchOf` leaves. -/
@[simp] theorem dropFetchOf_keeps (i : Nat) (s : State) :
    (dropFetchOf i s).pending = s.pending ∧ (dropFetchOf i s).mode = s.mode ∧
    (dropFetchOf i s).resetHeld = s.resetHeld ∧ (dropFetchOf i s).pos = s.pos ∧
    (dropFetchOf i s).link = s.link ∧ (dropFetchOf i s).ec = s.ec ∧ (dropFetchOf i s).pool = s.pool ∧
    (dropFetchOf i s).lev = s.lev ∧ (dropFetchOf i s).params = s.params ∧ (dropFetchOf i s).mix = s.mix ∧
    (dropFetchOf i s).clip = s.clip ∧ (dropFetchOf i s).slot = s.slot ∧ (dropFetchOf i s).prog = s.prog ∧
    (dropFetchOf i s).queue = s.queue ∧ (dropFetchOf i s).waitList = s.waitList ∧
    (dropFetchOf i s).tmn = s.tmn ∧ (dropFetchOf i s).hwy = s.hwy ∧ (dropFetchOf i s).words = s.words ∧
    (dropFetchOf i s).port = s.port ∧ (dropFetchOf i s).callQ = s.callQ ∧ (dropFetchOf i s).floorQ = s.floorQ ∧
    (dropFetchOf i s).maintQ = s.maintQ := by
  unfold dropFetchOf
  try dsimp only
  repeat' apply And.intro
  all_goals simp

/-- What `applyPending` leaves. -/
@[simp] theorem applyPending_keeps (k : Nat) (s : State) :
    (applyPending k s).pending = s.pending ∧ (applyPending k s).mode = s.mode ∧
    (applyPending k s).resetHeld = s.resetHeld ∧ (applyPending k s).pos = s.pos ∧
    (applyPending k s).link = s.link ∧ (applyPending k s).ec = s.ec ∧ (applyPending k s).pool = s.pool ∧
    (applyPending k s).lev = s.lev ∧ (applyPending k s).params = s.params ∧ (applyPending k s).mix = s.mix ∧
    (applyPending k s).clip = s.clip ∧ (applyPending k s).slot = s.slot ∧ (applyPending k s).queue = s.queue ∧
    (applyPending k s).waitList = s.waitList ∧ (applyPending k s).store = s.store ∧
    (applyPending k s).tmn = s.tmn ∧ (applyPending k s).hwy = s.hwy ∧ (applyPending k s).words = s.words ∧
    (applyPending k s).port = s.port := by
  unfold applyPending
  try dsimp only
  repeat' apply And.intro
  all_goals (repeat' split) <;> simp

/-- What `startProgramme` leaves. -/
@[simp] theorem startProgramme_keeps (k : Nat) (s : State) :
    (startProgramme k s).pending = s.pending ∧ (startProgramme k s).mode = s.mode ∧
    (startProgramme k s).resetHeld = s.resetHeld ∧ (startProgramme k s).pos = s.pos ∧
    (startProgramme k s).link = s.link ∧ (startProgramme k s).ec = s.ec ∧ (startProgramme k s).pool = s.pool ∧
    (startProgramme k s).lev = s.lev ∧ (startProgramme k s).params = s.params ∧
    (startProgramme k s).mix = s.mix ∧ (startProgramme k s).prog = s.prog ∧
    (startProgramme k s).queue = s.queue ∧ (startProgramme k s).waitList = s.waitList ∧
    (startProgramme k s).store = s.store ∧ (startProgramme k s).tmn = s.tmn ∧
    (startProgramme k s).hwy = s.hwy ∧ (startProgramme k s).words = s.words ∧
    (startProgramme k s).port = s.port ∧ (startProgramme k s).callQ = s.callQ ∧
    (startProgramme k s).floorQ = s.floorQ ∧ (startProgramme k s).maintQ = s.maintQ := by
  unfold startProgramme
  try dsimp only
  repeat' apply And.intro
  all_goals (repeat' split) <;> simp

/-- What `settleProgramme` leaves. -/
@[simp] theorem settleProgramme_keeps (k : Nat) (s : State) :
    (settleProgramme k s).pending = s.pending ∧ (settleProgramme k s).mode = s.mode ∧
    (settleProgramme k s).resetHeld = s.resetHeld ∧ (settleProgramme k s).pos = s.pos ∧
    (settleProgramme k s).link = s.link ∧ (settleProgramme k s).ec = s.ec ∧
    (settleProgramme k s).pool = s.pool ∧ (settleProgramme k s).lev = s.lev ∧
    (settleProgramme k s).params = s.params ∧ (settleProgramme k s).mix = s.mix ∧
    (settleProgramme k s).queue = s.queue ∧ (settleProgramme k s).waitList = s.waitList ∧
    (settleProgramme k s).store = s.store ∧ (settleProgramme k s).tmn = s.tmn ∧
    (settleProgramme k s).hwy = s.hwy ∧ (settleProgramme k s).words = s.words ∧
    (settleProgramme k s).port = s.port := by
  unfold settleProgramme
  try dsimp only
  repeat' apply And.intro
  all_goals (repeat' split) <;> simp

/-- What `reachIdle` leaves. -/
@[simp] theorem reachIdle_keeps (i : Nat) (c : Cause) (s : State) :
    (reachIdle i c s).pending = s.pending ∧ (reachIdle i c s).mode = s.mode ∧
    (reachIdle i c s).resetHeld = s.resetHeld ∧ (reachIdle i c s).pos = s.pos ∧
    (reachIdle i c s).link = s.link ∧ (reachIdle i c s).ec = s.ec ∧ (reachIdle i c s).pool = s.pool ∧
    (reachIdle i c s).lev = s.lev ∧ (reachIdle i c s).params = s.params ∧ (reachIdle i c s).mix = s.mix ∧
    (reachIdle i c s).tmn = s.tmn ∧ (reachIdle i c s).hwy = s.hwy ∧ (reachIdle i c s).words = s.words ∧
    (reachIdle i c s).port = s.port := by
  unfold reachIdle
  simp only
  repeat' apply And.intro
  all_goals (split <;> split <;> simp)

/-- What `listenerUp` leaves. -/
@[simp] theorem listenerUp_keeps (k : Nat) (s : State) :
    (listenerUp k s).pending = s.pending ∧ (listenerUp k s).mode = s.mode ∧
    (listenerUp k s).resetHeld = s.resetHeld ∧ (listenerUp k s).pos = s.pos ∧ (listenerUp k s).link = s.link ∧
    (listenerUp k s).ec = s.ec ∧ (listenerUp k s).pool = s.pool ∧ (listenerUp k s).lev = s.lev ∧
    (listenerUp k s).params = s.params ∧ (listenerUp k s).mix = s.mix ∧ (listenerUp k s).queue = s.queue ∧
    (listenerUp k s).waitList = s.waitList ∧ (listenerUp k s).store = s.store ∧ (listenerUp k s).tmn = s.tmn ∧
    (listenerUp k s).hwy = s.hwy ∧ (listenerUp k s).words = s.words ∧ (listenerUp k s).port = s.port ∧
    (listenerUp k s).callQ = s.callQ ∧ (listenerUp k s).floorQ = s.floorQ ∧
    (listenerUp k s).maintQ = s.maintQ := by
  unfold listenerUp
  try dsimp only
  repeat' apply And.intro
  all_goals (repeat' split) <;> simp

/-- What `listenerDown` leaves. -/
@[simp] theorem listenerDown_keeps (k : Nat) (s : State) :
    (listenerDown k s).pending = s.pending ∧ (listenerDown k s).mode = s.mode ∧
    (listenerDown k s).resetHeld = s.resetHeld ∧ (listenerDown k s).pos = s.pos ∧
    (listenerDown k s).link = s.link ∧ (listenerDown k s).ec = s.ec ∧ (listenerDown k s).pool = s.pool ∧
    (listenerDown k s).lev = s.lev ∧ (listenerDown k s).params = s.params ∧ (listenerDown k s).mix = s.mix ∧
    (listenerDown k s).clip = s.clip ∧ (listenerDown k s).queue = s.queue ∧
    (listenerDown k s).waitList = s.waitList ∧ (listenerDown k s).store = s.store ∧
    (listenerDown k s).tmn = s.tmn ∧ (listenerDown k s).hwy = s.hwy ∧ (listenerDown k s).words = s.words ∧
    (listenerDown k s).port = s.port ∧ (listenerDown k s).callQ = s.callQ ∧
    (listenerDown k s).floorQ = s.floorQ ∧ (listenerDown k s).maintQ = s.maintQ := by
  unfold listenerDown
  try dsimp only
  repeat' apply And.intro
  all_goals (repeat' split) <;> simp

/-- What `flushWhispers` leaves. -/
@[simp] theorem flushWhispers_keeps (p : Nat) (s : State) :
    (flushWhispers p s).pending = s.pending ∧ (flushWhispers p s).mode = s.mode ∧
    (flushWhispers p s).resetHeld = s.resetHeld ∧ (flushWhispers p s).pos = s.pos ∧
    (flushWhispers p s).link = s.link ∧ (flushWhispers p s).ec = s.ec ∧ (flushWhispers p s).pool = s.pool ∧
    (flushWhispers p s).lev = s.lev ∧ (flushWhispers p s).params = s.params ∧ (flushWhispers p s).mix = s.mix ∧
    (flushWhispers p s).clip = s.clip ∧ (flushWhispers p s).prog = s.prog ∧
    (flushWhispers p s).store = s.store ∧ (flushWhispers p s).tmn = s.tmn ∧ (flushWhispers p s).hwy = s.hwy ∧
    (flushWhispers p s).words = s.words ∧ (flushWhispers p s).port = s.port := by
  unfold flushWhispers
  simp only
  repeat' apply And.intro
  all_goals (split <;> split <;> simp)

/-- What `stopCaller` leaves. -/
@[simp] theorem stopCaller_keeps (p : Nat) (c : Cause) (s : State) :
    (stopCaller p c s).pending = s.pending ∧ (stopCaller p c s).mode = s.mode ∧
    (stopCaller p c s).resetHeld = s.resetHeld ∧ (stopCaller p c s).pos = s.pos ∧
    (stopCaller p c s).link = s.link ∧ (stopCaller p c s).ec = s.ec ∧ (stopCaller p c s).pool = s.pool ∧
    (stopCaller p c s).lev = s.lev ∧ (stopCaller p c s).params = s.params ∧ (stopCaller p c s).mix = s.mix ∧
    (stopCaller p c s).clip = s.clip ∧ (stopCaller p c s).prog = s.prog ∧ (stopCaller p c s).queue = s.queue ∧
    (stopCaller p c s).waitList = s.waitList ∧ (stopCaller p c s).store = s.store ∧
    (stopCaller p c s).tmn = s.tmn ∧ (stopCaller p c s).hwy = s.hwy ∧ (stopCaller p c s).words = s.words ∧
    (stopCaller p c s).port = s.port ∧ (stopCaller p c s).callQ = s.callQ ∧
    (stopCaller p c s).floorQ = s.floorQ ∧ (stopCaller p c s).maintQ = s.maintQ := by
  unfold stopCaller
  try dsimp only
  repeat' apply And.intro
  all_goals (repeat' split) <;> simp

/-- What `postUnderrun` leaves. -/
@[simp] theorem postUnderrun_keeps (i : Nat) (x : Slot) (s : State) :
    (postUnderrun i x s).pending = s.pending ∧ (postUnderrun i x s).mode = s.mode ∧
    (postUnderrun i x s).resetHeld = s.resetHeld ∧ (postUnderrun i x s).pos = s.pos ∧
    (postUnderrun i x s).link = s.link ∧ (postUnderrun i x s).ec = s.ec ∧ (postUnderrun i x s).pool = s.pool ∧
    (postUnderrun i x s).lev = s.lev ∧ (postUnderrun i x s).params = s.params ∧
    (postUnderrun i x s).mix = s.mix ∧ (postUnderrun i x s).clip = s.clip ∧
    (postUnderrun i x s).slot = s.slot ∧ (postUnderrun i x s).prog = s.prog ∧
    (postUnderrun i x s).queue = s.queue ∧ (postUnderrun i x s).waitList = s.waitList ∧
    (postUnderrun i x s).store = s.store ∧ (postUnderrun i x s).tmn = s.tmn ∧
    (postUnderrun i x s).hwy = s.hwy ∧ (postUnderrun i x s).words = s.words ∧
    (postUnderrun i x s).port = s.port := by
  unfold postUnderrun
  try dsimp only
  repeat' apply And.intro
  all_goals (repeat' split) <;> simp

/-- What `stoppingFrame` leaves. -/
@[simp] theorem stoppingFrame_keeps (i : Nat) (s : State) :
    (stoppingFrame i s).pending = s.pending ∧ (stoppingFrame i s).mode = s.mode ∧
    (stoppingFrame i s).resetHeld = s.resetHeld ∧ (stoppingFrame i s).pos = s.pos ∧
    (stoppingFrame i s).link = s.link ∧ (stoppingFrame i s).ec = s.ec ∧ (stoppingFrame i s).pool = s.pool ∧
    (stoppingFrame i s).lev = s.lev ∧ (stoppingFrame i s).params = s.params ∧ (stoppingFrame i s).mix = s.mix ∧
    (stoppingFrame i s).tmn = s.tmn ∧ (stoppingFrame i s).hwy = s.hwy ∧ (stoppingFrame i s).words = s.words ∧
    (stoppingFrame i s).port = s.port := by
  unfold stoppingFrame
  simp only
  repeat' apply And.intro
  all_goals (split; · simp
             split <;> simp)

/-- What `slotFrame` leaves. -/
@[simp] theorem slotFrame_keeps (i : Nat) (s : State) :
    (slotFrame i s).pending = s.pending ∧ (slotFrame i s).mode = s.mode ∧
    (slotFrame i s).resetHeld = s.resetHeld ∧ (slotFrame i s).pos = s.pos ∧ (slotFrame i s).link = s.link ∧
    (slotFrame i s).ec = s.ec ∧ (slotFrame i s).pool = s.pool ∧ (slotFrame i s).lev = s.lev ∧
    (slotFrame i s).params = s.params ∧ (slotFrame i s).mix = s.mix ∧ (slotFrame i s).tmn = s.tmn ∧
    (slotFrame i s).hwy = s.hwy ∧ (slotFrame i s).words = s.words ∧ (slotFrame i s).port = s.port := by
  unfold slotFrame
  simp only
  repeat' apply And.intro
  all_goals (repeat' split) <;> simp


/-! ### Positions and supervision (chapters 1 and 2) -/

/-- What `muteStep` leaves. -/
@[simp] theorem muteStep_keeps (p : Nat) (s : State) :
    (muteStep p s).pending = s.pending ∧ (muteStep p s).mode = s.mode ∧
    (muteStep p s).resetHeld = s.resetHeld ∧ (muteStep p s).link = s.link ∧ (muteStep p s).ec = s.ec ∧
    (muteStep p s).pool = s.pool ∧ (muteStep p s).lev = s.lev ∧ (muteStep p s).params = s.params ∧
    (muteStep p s).mix = s.mix ∧ (muteStep p s).clip = s.clip ∧ (muteStep p s).slot = s.slot ∧
    (muteStep p s).prog = s.prog ∧ (muteStep p s).queue = s.queue ∧ (muteStep p s).waitList = s.waitList ∧
    (muteStep p s).store = s.store ∧ (muteStep p s).tmn = s.tmn ∧ (muteStep p s).hwy = s.hwy ∧
    (muteStep p s).words = s.words ∧ (muteStep p s).port = s.port := by
  unfold muteStep
  simp only
  repeat' apply And.intro
  all_goals (split <;> simp)

/-- What `pressButton` leaves. -/
@[simp] theorem pressButton_keeps (p : Nat) (s : State) :
    (pressButton p s).pending = s.pending ∧ (pressButton p s).mode = s.mode ∧
    (pressButton p s).resetHeld = s.resetHeld ∧ (pressButton p s).link = s.link ∧ (pressButton p s).ec = s.ec ∧
    (pressButton p s).pool = s.pool ∧ (pressButton p s).lev = s.lev ∧ (pressButton p s).params = s.params ∧
    (pressButton p s).mix = s.mix ∧ (pressButton p s).clip = s.clip ∧ (pressButton p s).slot = s.slot ∧
    (pressButton p s).prog = s.prog ∧ (pressButton p s).queue = s.queue ∧
    (pressButton p s).waitList = s.waitList ∧ (pressButton p s).store = s.store ∧
    (pressButton p s).tmn = s.tmn ∧ (pressButton p s).hwy = s.hwy ∧ (pressButton p s).words = s.words ∧
    (pressButton p s).port = s.port := by
  unfold pressButton
  try dsimp only
  repeat' apply And.intro
  all_goals simp

/-- What `unrelate` leaves. -/
@[simp] theorem unrelate_keeps (a b : Nat) (s : State) :
    (unrelate a b s).pending = s.pending ∧ (unrelate a b s).mode = s.mode ∧
    (unrelate a b s).resetHeld = s.resetHeld ∧ (unrelate a b s).link = s.link ∧ (unrelate a b s).ec = s.ec ∧
    (unrelate a b s).pool = s.pool ∧ (unrelate a b s).lev = s.lev ∧ (unrelate a b s).params = s.params ∧
    (unrelate a b s).mix = s.mix ∧ (unrelate a b s).clip = s.clip ∧ (unrelate a b s).slot = s.slot ∧
    (unrelate a b s).prog = s.prog ∧ (unrelate a b s).queue = s.queue ∧
    (unrelate a b s).waitList = s.waitList ∧ (unrelate a b s).store = s.store ∧ (unrelate a b s).tmn = s.tmn ∧
    (unrelate a b s).hwy = s.hwy ∧ (unrelate a b s).words = s.words ∧ (unrelate a b s).port = s.port ∧
    (unrelate a b s).callQ = s.callQ ∧ (unrelate a b s).floorQ = s.floorQ ∧
    (unrelate a b s).maintQ = s.maintQ := by
  unfold unrelate
  try dsimp only
  repeat' apply And.intro
  all_goals simp

/-- What `endMonitoring` leaves. -/
@[simp] theorem endMonitoring_keeps (a : Nat) (c : Cause) (s : State) :
    (endMonitoring a c s).pending = s.pending ∧ (endMonitoring a c s).mode = s.mode ∧
    (endMonitoring a c s).resetHeld = s.resetHeld ∧ (endMonitoring a c s).link = s.link ∧
    (endMonitoring a c s).ec = s.ec ∧ (endMonitoring a c s).pool = s.pool ∧ (endMonitoring a c s).lev = s.lev ∧
    (endMonitoring a c s).params = s.params ∧ (endMonitoring a c s).mix = s.mix ∧
    (endMonitoring a c s).clip = s.clip ∧ (endMonitoring a c s).slot = s.slot ∧
    (endMonitoring a c s).prog = s.prog ∧ (endMonitoring a c s).queue = s.queue ∧
    (endMonitoring a c s).waitList = s.waitList ∧ (endMonitoring a c s).store = s.store ∧
    (endMonitoring a c s).tmn = s.tmn ∧ (endMonitoring a c s).hwy = s.hwy ∧
    (endMonitoring a c s).words = s.words ∧ (endMonitoring a c s).port = s.port := by
  unfold endMonitoring
  try dsimp only
  repeat' apply And.intro
  all_goals (repeat' split) <;> simp

/-- What `teardown` leaves. -/
@[simp] theorem teardown_keeps (p : Nat) (c : Cause) (s : State) :
    (teardown p c s).pending = s.pending ∧ (teardown p c s).mode = s.mode ∧
    (teardown p c s).resetHeld = s.resetHeld ∧ (teardown p c s).link = s.link ∧ (teardown p c s).ec = s.ec ∧
    (teardown p c s).pool = s.pool ∧ (teardown p c s).lev = s.lev ∧ (teardown p c s).params = s.params ∧
    (teardown p c s).mix = s.mix ∧ (teardown p c s).clip = s.clip ∧ (teardown p c s).store = s.store ∧
    (teardown p c s).tmn = s.tmn ∧ (teardown p c s).hwy = s.hwy ∧ (teardown p c s).words = s.words ∧
    (teardown p c s).port = s.port := by
  unfold teardown
  simp only
  repeat' apply And.intro
  all_goals (split <;> simp)

/-- What `forcedRelease` leaves. -/
@[simp] theorem forcedRelease_keeps (s : State) :
    (forcedRelease s).pending = s.pending ∧ (forcedRelease s).mode = s.mode ∧
    (forcedRelease s).resetHeld = s.resetHeld ∧ (forcedRelease s).link = s.link ∧ (forcedRelease s).ec = s.ec ∧
    (forcedRelease s).pool = s.pool ∧ (forcedRelease s).lev = s.lev ∧ (forcedRelease s).params = s.params ∧
    (forcedRelease s).mix = s.mix ∧ (forcedRelease s).clip = s.clip ∧ (forcedRelease s).store = s.store ∧
    (forcedRelease s).tmn = s.tmn ∧ (forcedRelease s).hwy = s.hwy ∧ (forcedRelease s).words = s.words ∧
    (forcedRelease s).port = s.port := by
  refine forPositions_keeps
    (fun t =>
      t.pending = s.pending ∧ t.mode = s.mode ∧ t.resetHeld = s.resetHeld ∧ t.link = s.link ∧ t.ec = s.ec ∧
      t.pool = s.pool ∧ t.lev = s.lev ∧ t.params = s.params ∧ t.mix = s.mix ∧ t.clip = s.clip ∧
      t.store = s.store ∧ t.tmn = s.tmn ∧ t.hwy = s.hwy ∧ t.words = s.words ∧ t.port = s.port)
    _ ?_ s (by simp)
  intro p t _ ht
  split
  · exact ht
  · simp [ht]

/-- What `connectTaken` leaves. -/
@[simp] theorem connectTaken_keeps (p rx tx : Nat) (s : State) :
    (connectTaken p rx tx s).pending = s.pending ∧ (connectTaken p rx tx s).mode = s.mode ∧
    (connectTaken p rx tx s).resetHeld = s.resetHeld ∧ (connectTaken p rx tx s).link = s.link ∧
    (connectTaken p rx tx s).ec = s.ec ∧ (connectTaken p rx tx s).pool = s.pool ∧
    (connectTaken p rx tx s).lev = s.lev ∧ (connectTaken p rx tx s).params = s.params ∧
    (connectTaken p rx tx s).mix = s.mix ∧ (connectTaken p rx tx s).clip = s.clip ∧
    (connectTaken p rx tx s).slot = s.slot ∧ (connectTaken p rx tx s).prog = s.prog ∧
    (connectTaken p rx tx s).queue = s.queue ∧ (connectTaken p rx tx s).waitList = s.waitList ∧
    (connectTaken p rx tx s).store = s.store ∧ (connectTaken p rx tx s).tmn = s.tmn ∧
    (connectTaken p rx tx s).hwy = s.hwy ∧ (connectTaken p rx tx s).words = s.words ∧
    (connectTaken p rx tx s).port = s.port := by
  unfold connectTaken
  simp only
  repeat' apply And.intro
  all_goals (split <;> simp)

/-- What `relate` leaves. -/
@[simp] theorem relate_keeps (a b : Nat) (m : MonitorMode) (g : Option Nat) (s : State) :
    (relate a b m g s).pending = s.pending ∧ (relate a b m g s).mode = s.mode ∧
    (relate a b m g s).resetHeld = s.resetHeld ∧ (relate a b m g s).link = s.link ∧
    (relate a b m g s).ec = s.ec ∧ (relate a b m g s).pool = s.pool ∧ (relate a b m g s).lev = s.lev ∧
    (relate a b m g s).params = s.params ∧ (relate a b m g s).mix = s.mix ∧ (relate a b m g s).clip = s.clip ∧
    (relate a b m g s).slot = s.slot ∧ (relate a b m g s).prog = s.prog ∧ (relate a b m g s).queue = s.queue ∧
    (relate a b m g s).waitList = s.waitList ∧ (relate a b m g s).store = s.store ∧
    (relate a b m g s).tmn = s.tmn ∧ (relate a b m g s).hwy = s.hwy ∧ (relate a b m g s).words = s.words ∧
    (relate a b m g s).port = s.port ∧ (relate a b m g s).callQ = s.callQ ∧
    (relate a b m g s).floorQ = s.floorQ ∧ (relate a b m g s).maintQ = s.maintQ := by
  unfold relate
  try dsimp only
  repeat' apply And.intro
  all_goals simp

/-- What `interruptWhispers` leaves. -/
@[simp] theorem interruptWhispers_keeps (p : Nat) (it : WhisperItem) (s : State) :
    (interruptWhispers p it s).pending = s.pending ∧ (interruptWhispers p it s).mode = s.mode ∧
    (interruptWhispers p it s).resetHeld = s.resetHeld ∧ (interruptWhispers p it s).pos = s.pos ∧
    (interruptWhispers p it s).link = s.link ∧ (interruptWhispers p it s).ec = s.ec ∧
    (interruptWhispers p it s).pool = s.pool ∧ (interruptWhispers p it s).lev = s.lev ∧
    (interruptWhispers p it s).params = s.params ∧ (interruptWhispers p it s).mix = s.mix ∧
    (interruptWhispers p it s).clip = s.clip ∧ (interruptWhispers p it s).prog = s.prog ∧
    (interruptWhispers p it s).waitList = s.waitList ∧ (interruptWhispers p it s).store = s.store ∧
    (interruptWhispers p it s).tmn = s.tmn ∧ (interruptWhispers p it s).hwy = s.hwy ∧
    (interruptWhispers p it s).words = s.words ∧ (interruptWhispers p it s).port = s.port := by
  unfold interruptWhispers
  simp only
  repeat' apply And.intro
  all_goals (split <;> split <;> simp)


/-! ### The tap pool and the cancellers (chapters 4 and 5) -/

/-- What `grantSeg` leaves. -/
@[simp] theorem grantSeg_keeps (p g : Nat) (s : State) :
    (grantSeg p g s).pending = s.pending ∧ (grantSeg p g s).mode = s.mode ∧
    (grantSeg p g s).resetHeld = s.resetHeld ∧ (grantSeg p g s).pos = s.pos ∧ (grantSeg p g s).link = s.link ∧
    (grantSeg p g s).ec = s.ec ∧ (grantSeg p g s).lev = s.lev ∧ (grantSeg p g s).params = s.params ∧
    (grantSeg p g s).mix = s.mix ∧ (grantSeg p g s).clip = s.clip ∧ (grantSeg p g s).slot = s.slot ∧
    (grantSeg p g s).prog = s.prog ∧ (grantSeg p g s).queue = s.queue ∧
    (grantSeg p g s).waitList = s.waitList ∧ (grantSeg p g s).store = s.store ∧ (grantSeg p g s).tmn = s.tmn ∧
    (grantSeg p g s).hwy = s.hwy ∧ (grantSeg p g s).words = s.words ∧ (grantSeg p g s).port = s.port ∧
    (grantSeg p g s).callQ = s.callQ ∧ (grantSeg p g s).floorQ = s.floorQ ∧
    (grantSeg p g s).maintQ = s.maintQ := by
  unfold grantSeg
  try dsimp only
  repeat' apply And.intro
  all_goals simp

/-- What `freeSegment` leaves. -/
@[simp] theorem freeSegment_keeps (g : Nat) (s : State) :
    (freeSegment g s).pending = s.pending ∧ (freeSegment g s).mode = s.mode ∧
    (freeSegment g s).resetHeld = s.resetHeld ∧ (freeSegment g s).pos = s.pos ∧
    (freeSegment g s).link = s.link ∧ (freeSegment g s).ec = s.ec ∧ (freeSegment g s).lev = s.lev ∧
    (freeSegment g s).params = s.params ∧ (freeSegment g s).mix = s.mix ∧ (freeSegment g s).clip = s.clip ∧
    (freeSegment g s).slot = s.slot ∧ (freeSegment g s).prog = s.prog ∧ (freeSegment g s).queue = s.queue ∧
    (freeSegment g s).waitList = s.waitList ∧ (freeSegment g s).store = s.store ∧
    (freeSegment g s).tmn = s.tmn ∧ (freeSegment g s).hwy = s.hwy ∧ (freeSegment g s).words = s.words ∧
    (freeSegment g s).port = s.port ∧ (freeSegment g s).callQ = s.callQ ∧ (freeSegment g s).floorQ = s.floorQ ∧
    (freeSegment g s).maintQ = s.maintQ := by
  unfold freeSegment
  try dsimp only
  repeat' apply And.intro
  all_goals simp

/-- What `grantUpTo` leaves. -/
@[simp] theorem grantUpTo_keeps (p n : Nat) (s : State) :
    (grantUpTo p n s).pending = s.pending ∧ (grantUpTo p n s).mode = s.mode ∧
    (grantUpTo p n s).resetHeld = s.resetHeld ∧ (grantUpTo p n s).pos = s.pos ∧
    (grantUpTo p n s).link = s.link ∧ (grantUpTo p n s).ec = s.ec ∧ (grantUpTo p n s).lev = s.lev ∧
    (grantUpTo p n s).params = s.params ∧ (grantUpTo p n s).mix = s.mix ∧ (grantUpTo p n s).clip = s.clip ∧
    (grantUpTo p n s).slot = s.slot ∧ (grantUpTo p n s).prog = s.prog ∧ (grantUpTo p n s).queue = s.queue ∧
    (grantUpTo p n s).waitList = s.waitList ∧ (grantUpTo p n s).store = s.store ∧
    (grantUpTo p n s).tmn = s.tmn ∧ (grantUpTo p n s).hwy = s.hwy ∧ (grantUpTo p n s).words = s.words ∧
    (grantUpTo p n s).port = s.port ∧ (grantUpTo p n s).callQ = s.callQ ∧ (grantUpTo p n s).floorQ = s.floorQ ∧
    (grantUpTo p n s).maintQ = s.maintQ := by
  induction n generalizing s with
  | zero => simp [grantUpTo]
  | succ n ih => cases h : s.freeSeg <;> simp [grantUpTo, h, ih]

/-- What `freeTail` leaves. -/
@[simp] theorem freeTail_keeps (p n : Nat) (s : State) :
    (freeTail p n s).pending = s.pending ∧ (freeTail p n s).mode = s.mode ∧
    (freeTail p n s).resetHeld = s.resetHeld ∧ (freeTail p n s).pos = s.pos ∧ (freeTail p n s).link = s.link ∧
    (freeTail p n s).ec = s.ec ∧ (freeTail p n s).lev = s.lev ∧ (freeTail p n s).params = s.params ∧
    (freeTail p n s).mix = s.mix ∧ (freeTail p n s).clip = s.clip ∧ (freeTail p n s).slot = s.slot ∧
    (freeTail p n s).prog = s.prog ∧ (freeTail p n s).queue = s.queue ∧
    (freeTail p n s).waitList = s.waitList ∧ (freeTail p n s).store = s.store ∧ (freeTail p n s).tmn = s.tmn ∧
    (freeTail p n s).hwy = s.hwy ∧ (freeTail p n s).words = s.words ∧ (freeTail p n s).port = s.port ∧
    (freeTail p n s).callQ = s.callQ ∧ (freeTail p n s).floorQ = s.floorQ ∧
    (freeTail p n s).maintQ = s.maintQ := by
  induction n generalizing s with
  | zero => simp [freeTail]
  | succ n ih => cases h : (s.segsOf p).getLast? <;> simp [freeTail, h, ih]

/-- What `postShortfall` leaves. -/
@[simp] theorem postShortfall_keeps (p : Nat) (s : State) :
    (postShortfall p s).pending = s.pending ∧ (postShortfall p s).mode = s.mode ∧
    (postShortfall p s).resetHeld = s.resetHeld ∧ (postShortfall p s).pos = s.pos ∧
    (postShortfall p s).link = s.link ∧ (postShortfall p s).ec = s.ec ∧ (postShortfall p s).pool = s.pool ∧
    (postShortfall p s).lev = s.lev ∧ (postShortfall p s).params = s.params ∧ (postShortfall p s).mix = s.mix ∧
    (postShortfall p s).clip = s.clip ∧ (postShortfall p s).slot = s.slot ∧ (postShortfall p s).prog = s.prog ∧
    (postShortfall p s).queue = s.queue ∧ (postShortfall p s).waitList = s.waitList ∧
    (postShortfall p s).store = s.store ∧ (postShortfall p s).tmn = s.tmn ∧ (postShortfall p s).hwy = s.hwy ∧
    (postShortfall p s).words = s.words ∧ (postShortfall p s).port = s.port := by
  unfold postShortfall
  try dsimp only
  repeat' apply And.intro
  all_goals simp

/-- What `serveShortfall` leaves. -/
@[simp] theorem serveShortfall_keeps (n : Nat) (s : State) :
    (serveShortfall n s).pending = s.pending ∧ (serveShortfall n s).mode = s.mode ∧
    (serveShortfall n s).resetHeld = s.resetHeld ∧ (serveShortfall n s).pos = s.pos ∧
    (serveShortfall n s).link = s.link ∧ (serveShortfall n s).ec = s.ec ∧ (serveShortfall n s).lev = s.lev ∧
    (serveShortfall n s).params = s.params ∧ (serveShortfall n s).mix = s.mix ∧
    (serveShortfall n s).clip = s.clip ∧ (serveShortfall n s).slot = s.slot ∧
    (serveShortfall n s).prog = s.prog ∧ (serveShortfall n s).queue = s.queue ∧
    (serveShortfall n s).waitList = s.waitList ∧ (serveShortfall n s).store = s.store ∧
    (serveShortfall n s).tmn = s.tmn ∧ (serveShortfall n s).hwy = s.hwy ∧
    (serveShortfall n s).words = s.words ∧ (serveShortfall n s).port = s.port := by
  induction n generalizing s with
  | zero => simp [serveShortfall]
  | succ n ih =>
    unfold serveShortfall
    repeat' apply And.intro
    all_goals (split <;> [skip; simp])
    all_goals (simp only; split <;> simp [ih])

/-- What `serveShort` leaves. -/
@[simp] theorem serveShort_keeps (s : State) :
    (serveShort s).pending = s.pending ∧ (serveShort s).mode = s.mode ∧
    (serveShort s).resetHeld = s.resetHeld ∧ (serveShort s).pos = s.pos ∧ (serveShort s).link = s.link ∧
    (serveShort s).ec = s.ec ∧ (serveShort s).lev = s.lev ∧ (serveShort s).params = s.params ∧
    (serveShort s).mix = s.mix ∧ (serveShort s).clip = s.clip ∧ (serveShort s).slot = s.slot ∧
    (serveShort s).prog = s.prog ∧ (serveShort s).queue = s.queue ∧ (serveShort s).waitList = s.waitList ∧
    (serveShort s).store = s.store ∧ (serveShort s).tmn = s.tmn ∧ (serveShort s).hwy = s.hwy ∧
    (serveShort s).words = s.words ∧ (serveShort s).port = s.port := by
  unfold serveShort
  try dsimp only
  repeat' apply And.intro
  all_goals simp

/-- What `servePosition` leaves. -/
@[simp] theorem servePosition_keeps (p : Nat) (s : State) :
    (servePosition p s).pending = s.pending ∧ (servePosition p s).mode = s.mode ∧
    (servePosition p s).resetHeld = s.resetHeld ∧ (servePosition p s).pos = s.pos ∧
    (servePosition p s).link = s.link ∧ (servePosition p s).ec = s.ec ∧ (servePosition p s).lev = s.lev ∧
    (servePosition p s).params = s.params ∧ (servePosition p s).mix = s.mix ∧
    (servePosition p s).clip = s.clip ∧ (servePosition p s).slot = s.slot ∧ (servePosition p s).prog = s.prog ∧
    (servePosition p s).queue = s.queue ∧ (servePosition p s).waitList = s.waitList ∧
    (servePosition p s).store = s.store ∧ (servePosition p s).tmn = s.tmn ∧ (servePosition p s).hwy = s.hwy ∧
    (servePosition p s).words = s.words ∧ (servePosition p s).port = s.port := by
  unfold servePosition
  simp only
  repeat' apply And.intro
  all_goals (split <;> [skip; simp])
  all_goals (split <;> simp)

/-- What `setRequest` leaves. -/
@[simp] theorem setRequest_keeps (p r : Nat) (s : State) :
    (setRequest p r s).pending = s.pending ∧ (setRequest p r s).mode = s.mode ∧
    (setRequest p r s).resetHeld = s.resetHeld ∧ (setRequest p r s).pos = s.pos ∧
    (setRequest p r s).link = s.link ∧ (setRequest p r s).lev = s.lev ∧ (setRequest p r s).params = s.params ∧
    (setRequest p r s).mix = s.mix ∧ (setRequest p r s).clip = s.clip ∧ (setRequest p r s).slot = s.slot ∧
    (setRequest p r s).prog = s.prog ∧ (setRequest p r s).queue = s.queue ∧
    (setRequest p r s).waitList = s.waitList ∧ (setRequest p r s).store = s.store ∧
    (setRequest p r s).tmn = s.tmn ∧ (setRequest p r s).hwy = s.hwy ∧ (setRequest p r s).words = s.words ∧
    (setRequest p r s).port = s.port := by
  unfold setRequest
  simp only
  repeat' apply And.intro
  all_goals (repeat' split) <;> simp

/-- What `poolLinkUp` leaves. -/
@[simp] theorem poolLinkUp_keeps (p : Nat) (s : State) :
    (poolLinkUp p s).pending = s.pending ∧ (poolLinkUp p s).mode = s.mode ∧
    (poolLinkUp p s).resetHeld = s.resetHeld ∧ (poolLinkUp p s).pos = s.pos ∧ (poolLinkUp p s).link = s.link ∧
    (poolLinkUp p s).ec = s.ec ∧ (poolLinkUp p s).lev = s.lev ∧ (poolLinkUp p s).params = s.params ∧
    (poolLinkUp p s).mix = s.mix ∧ (poolLinkUp p s).clip = s.clip ∧ (poolLinkUp p s).slot = s.slot ∧
    (poolLinkUp p s).prog = s.prog ∧ (poolLinkUp p s).queue = s.queue ∧
    (poolLinkUp p s).waitList = s.waitList ∧ (poolLinkUp p s).store = s.store ∧ (poolLinkUp p s).tmn = s.tmn ∧
    (poolLinkUp p s).hwy = s.hwy ∧ (poolLinkUp p s).words = s.words ∧ (poolLinkUp p s).port = s.port := by
  unfold poolLinkUp
  try dsimp only
  repeat' apply And.intro
  all_goals simp

/-- What `poolLinkDown` leaves. -/
@[simp] theorem poolLinkDown_keeps (p : Nat) (s : State) :
    (poolLinkDown p s).pending = s.pending ∧ (poolLinkDown p s).mode = s.mode ∧
    (poolLinkDown p s).resetHeld = s.resetHeld ∧ (poolLinkDown p s).pos = s.pos ∧
    (poolLinkDown p s).link = s.link ∧ (poolLinkDown p s).ec = s.ec ∧ (poolLinkDown p s).lev = s.lev ∧
    (poolLinkDown p s).params = s.params ∧ (poolLinkDown p s).mix = s.mix ∧ (poolLinkDown p s).clip = s.clip ∧
    (poolLinkDown p s).slot = s.slot ∧ (poolLinkDown p s).prog = s.prog ∧ (poolLinkDown p s).queue = s.queue ∧
    (poolLinkDown p s).waitList = s.waitList ∧ (poolLinkDown p s).store = s.store ∧
    (poolLinkDown p s).tmn = s.tmn ∧ (poolLinkDown p s).hwy = s.hwy ∧ (poolLinkDown p s).words = s.words ∧
    (poolLinkDown p s).port = s.port := by
  unfold poolLinkDown
  try dsimp only
  repeat' apply And.intro
  all_goals simp

/-- What `updateSegs` leaves. -/
@[simp] theorem updateSegs_keeps (g : Int) (h : List Int) (i : Nat) (l : List Nat) (s : State) :
    (updateSegs g h i l s).pending = s.pending ∧ (updateSegs g h i l s).mode = s.mode ∧
    (updateSegs g h i l s).resetHeld = s.resetHeld ∧ (updateSegs g h i l s).pos = s.pos ∧
    (updateSegs g h i l s).link = s.link ∧ (updateSegs g h i l s).ec = s.ec ∧
    (updateSegs g h i l s).lev = s.lev ∧ (updateSegs g h i l s).params = s.params ∧
    (updateSegs g h i l s).mix = s.mix ∧ (updateSegs g h i l s).clip = s.clip ∧
    (updateSegs g h i l s).slot = s.slot ∧ (updateSegs g h i l s).prog = s.prog ∧
    (updateSegs g h i l s).queue = s.queue ∧ (updateSegs g h i l s).waitList = s.waitList ∧
    (updateSegs g h i l s).store = s.store ∧ (updateSegs g h i l s).tmn = s.tmn ∧
    (updateSegs g h i l s).hwy = s.hwy ∧ (updateSegs g h i l s).words = s.words ∧
    (updateSegs g h i l s).port = s.port ∧ (updateSegs g h i l s).callQ = s.callQ ∧
    (updateSegs g h i l s).floorQ = s.floorQ ∧ (updateSegs g h i l s).maintQ = s.maintQ := by
  induction l generalizing i s with
  | nil => simp [updateSegs]
  | cons a l ih => simp [updateSegs, ih]

/-- What `cancel` leaves. -/
@[simp] theorem cancel_keeps (p : Nat) (d : Int) (s : State) :
    (cancel p d s).1.pending = s.pending ∧ (cancel p d s).1.mode = s.mode ∧
    (cancel p d s).1.resetHeld = s.resetHeld ∧ (cancel p d s).1.pos = s.pos ∧ (cancel p d s).1.link = s.link ∧
    (cancel p d s).1.lev = s.lev ∧ (cancel p d s).1.params = s.params ∧ (cancel p d s).1.mix = s.mix ∧
    (cancel p d s).1.clip = s.clip ∧ (cancel p d s).1.slot = s.slot ∧ (cancel p d s).1.prog = s.prog ∧
    (cancel p d s).1.queue = s.queue ∧ (cancel p d s).1.waitList = s.waitList ∧ (cancel p d s).1.store = s.store ∧
    (cancel p d s).1.tmn = s.tmn ∧ (cancel p d s).1.hwy = s.hwy ∧ (cancel p d s).1.words = s.words ∧
    (cancel p d s).1.port = s.port ∧ (cancel p d s).1.callQ = s.callQ ∧ (cancel p d s).1.floorQ = s.floorQ ∧
    (cancel p d s).1.maintQ = s.maintQ := by
  unfold cancel
  simp only
  repeat' apply And.intro
  all_goals (repeat' split) <;> simp

/-- What `zeroCanceller` leaves. -/
@[simp] theorem zeroCanceller_keeps (p : Nat) (s : State) :
    (zeroCanceller p s).pending = s.pending ∧ (zeroCanceller p s).mode = s.mode ∧
    (zeroCanceller p s).resetHeld = s.resetHeld ∧ (zeroCanceller p s).pos = s.pos ∧
    (zeroCanceller p s).link = s.link ∧ (zeroCanceller p s).lev = s.lev ∧
    (zeroCanceller p s).params = s.params ∧ (zeroCanceller p s).mix = s.mix ∧
    (zeroCanceller p s).clip = s.clip ∧ (zeroCanceller p s).slot = s.slot ∧ (zeroCanceller p s).prog = s.prog ∧
    (zeroCanceller p s).queue = s.queue ∧ (zeroCanceller p s).waitList = s.waitList ∧
    (zeroCanceller p s).store = s.store ∧ (zeroCanceller p s).tmn = s.tmn ∧ (zeroCanceller p s).hwy = s.hwy ∧
    (zeroCanceller p s).words = s.words ∧ (zeroCanceller p s).port = s.port ∧
    (zeroCanceller p s).callQ = s.callQ ∧ (zeroCanceller p s).floorQ = s.floorQ ∧
    (zeroCanceller p s).maintQ = s.maintQ := by
  have key : ∀ (l : List Nat) (u : State),
      (fun t : State =>
      t.pending = s.pending ∧ t.mode = s.mode ∧ t.resetHeld = s.resetHeld ∧ t.pos = s.pos ∧ t.link = s.link ∧
      t.lev = s.lev ∧ t.params = s.params ∧ t.mix = s.mix ∧ t.clip = s.clip ∧ t.slot = s.slot ∧
      t.prog = s.prog ∧ t.queue = s.queue ∧ t.waitList = s.waitList ∧ t.store = s.store ∧ t.tmn = s.tmn ∧
      t.hwy = s.hwy ∧ t.words = s.words ∧ t.port = s.port ∧ t.callQ = s.callQ ∧ t.floorQ = s.floorQ ∧
      t.maintQ = s.maintQ)
      u →
      (fun t : State =>
      t.pending = s.pending ∧ t.mode = s.mode ∧ t.resetHeld = s.resetHeld ∧ t.pos = s.pos ∧ t.link = s.link ∧
      t.lev = s.lev ∧ t.params = s.params ∧ t.mix = s.mix ∧ t.clip = s.clip ∧ t.slot = s.slot ∧
      t.prog = s.prog ∧ t.queue = s.queue ∧ t.waitList = s.waitList ∧ t.store = s.store ∧ t.tmn = s.tmn ∧
      t.hwy = s.hwy ∧ t.words = s.words ∧ t.port = s.port ∧ t.callQ = s.callQ ∧ t.floorQ = s.floorQ ∧
      t.maintQ = s.maintQ)
      (l.foldl (fun s g => s.modSeg g (fun x => { x with coeffs := Segment.free.coeffs })) u) := by
    intro l
    induction l with
    | nil => exact fun u hu => hu
    | cons a l ih => exact fun u hu => ih _ (by simpa using hu)
  simpa [zeroCanceller] using key (s.segsOf p) s (by simp)


/-! ### Levels, frames and timing (chapters 3, 6, 9 and 10) -/

/-- What `suppress` leaves. -/
@[simp] theorem suppress_keeps (p : Nat) (e : Int) (s : State) :
    (suppress p e s).pending = s.pending ∧ (suppress p e s).mode = s.mode ∧
    (suppress p e s).resetHeld = s.resetHeld ∧ (suppress p e s).pos = s.pos ∧ (suppress p e s).link = s.link ∧
    (suppress p e s).ec = s.ec ∧ (suppress p e s).pool = s.pool ∧ (suppress p e s).params = s.params ∧
    (suppress p e s).clip = s.clip ∧ (suppress p e s).slot = s.slot ∧ (suppress p e s).prog = s.prog ∧
    (suppress p e s).queue = s.queue ∧ (suppress p e s).waitList = s.waitList ∧
    (suppress p e s).store = s.store ∧ (suppress p e s).tmn = s.tmn ∧ (suppress p e s).hwy = s.hwy ∧
    (suppress p e s).words = s.words ∧ (suppress p e s).port = s.port ∧ (suppress p e s).callQ = s.callQ ∧
    (suppress p e s).floorQ = s.floorQ ∧ (suppress p e s).maintQ = s.maintQ := by
  unfold suppress
  try dsimp only
  repeat' apply And.intro
  all_goals simp

/-- What `blockEndLevels` leaves. -/
@[simp] theorem blockEndLevels_keeps (s : State) :
    (blockEndLevels s).pending = s.pending ∧ (blockEndLevels s).mode = s.mode ∧
    (blockEndLevels s).resetHeld = s.resetHeld ∧ (blockEndLevels s).pos = s.pos ∧
    (blockEndLevels s).link = s.link ∧ (blockEndLevels s).ec = s.ec ∧ (blockEndLevels s).pool = s.pool ∧
    (blockEndLevels s).params = s.params ∧ (blockEndLevels s).clip = s.clip ∧
    (blockEndLevels s).slot = s.slot ∧ (blockEndLevels s).prog = s.prog ∧ (blockEndLevels s).queue = s.queue ∧
    (blockEndLevels s).waitList = s.waitList ∧ (blockEndLevels s).store = s.store ∧
    (blockEndLevels s).tmn = s.tmn ∧ (blockEndLevels s).hwy = s.hwy ∧ (blockEndLevels s).words = s.words ∧
    (blockEndLevels s).port = s.port ∧ (blockEndLevels s).callQ = s.callQ ∧
    (blockEndLevels s).floorQ = s.floorQ ∧ (blockEndLevels s).maintQ = s.maintQ := by
  have key : ∀ (f : Nat → State → State) (u : State),
      (∀ p t, (f p t).pending = t.pending ∧
        (f p t).mode = t.mode ∧ (f p t).resetHeld = t.resetHeld ∧ (f p t).pos = t.pos ∧ (f p t).link = t.link ∧
        (f p t).ec = t.ec ∧ (f p t).pool = t.pool ∧ (f p t).params = t.params ∧ (f p t).clip = t.clip ∧
        (f p t).slot = t.slot ∧ (f p t).prog = t.prog ∧ (f p t).queue = t.queue ∧ (f p t).waitList = t.waitList ∧
        (f p t).store = t.store ∧ (f p t).tmn = t.tmn ∧ (f p t).hwy = t.hwy ∧ (f p t).words = t.words ∧
        (f p t).port = t.port ∧ (f p t).callQ = t.callQ ∧ (f p t).floorQ = t.floorQ ∧ (f p t).maintQ = t.maintQ) →
      (u.pending = s.pending ∧
        u.mode = s.mode ∧ u.resetHeld = s.resetHeld ∧ u.pos = s.pos ∧ u.link = s.link ∧
        u.ec = s.ec ∧ u.pool = s.pool ∧ u.params = s.params ∧ u.clip = s.clip ∧
        u.slot = s.slot ∧ u.prog = s.prog ∧ u.queue = s.queue ∧ u.waitList = s.waitList ∧
        u.store = s.store ∧ u.tmn = s.tmn ∧ u.hwy = s.hwy ∧ u.words = s.words ∧
        u.port = s.port ∧ u.callQ = s.callQ ∧ u.floorQ = s.floorQ ∧ u.maintQ = s.maintQ) →
      ((forPositions f u).pending = s.pending ∧
        (forPositions f u).mode = s.mode ∧ (forPositions f u).resetHeld = s.resetHeld ∧ (forPositions f u).pos = s.pos ∧
        (forPositions f u).link = s.link ∧ (forPositions f u).ec = s.ec ∧ (forPositions f u).pool = s.pool ∧
        (forPositions f u).params = s.params ∧ (forPositions f u).clip = s.clip ∧ (forPositions f u).slot = s.slot ∧
        (forPositions f u).prog = s.prog ∧ (forPositions f u).queue = s.queue ∧ (forPositions f u).waitList = s.waitList ∧
        (forPositions f u).store = s.store ∧ (forPositions f u).tmn = s.tmn ∧ (forPositions f u).hwy = s.hwy ∧
        (forPositions f u).words = s.words ∧ (forPositions f u).port = s.port ∧ (forPositions f u).callQ = s.callQ ∧
        (forPositions f u).floorQ = s.floorQ ∧ (forPositions f u).maintQ = s.maintQ) := by
    intro f u hf hu
    refine forPositions_keeps
      (fun t =>
      t.pending = s.pending ∧ t.mode = s.mode ∧ t.resetHeld = s.resetHeld ∧ t.pos = s.pos ∧ t.link = s.link ∧
      t.ec = s.ec ∧ t.pool = s.pool ∧ t.params = s.params ∧ t.clip = s.clip ∧ t.slot = s.slot ∧
      t.prog = s.prog ∧ t.queue = s.queue ∧ t.waitList = s.waitList ∧ t.store = s.store ∧ t.tmn = s.tmn ∧
      t.hwy = s.hwy ∧ t.words = s.words ∧ t.port = s.port ∧ t.callQ = s.callQ ∧ t.floorQ = s.floorQ ∧
      t.maintQ = s.maintQ)
      f ?_ u hu
    intro p t _ ht
    have := hf p t
    simp only [this, ht, and_self]
  unfold blockEndLevels
  refine key _ _ (fun p t => by simp) (key _ _ (fun p t => by simp) (key _ _ (fun p t => by simp)
    (key _ _ (fun p t => by simp) (key _ _ (fun p t => by simp) ?_))))
  simp

/-- What `handOn` leaves. -/
@[simp] theorem handOn_keeps (p : Nat) (d : Int) (s : State) :
    (handOn p d s).pending = s.pending ∧ (handOn p d s).mode = s.mode ∧
    (handOn p d s).resetHeld = s.resetHeld ∧ (handOn p d s).pos = s.pos ∧ (handOn p d s).link = s.link ∧
    (handOn p d s).params = s.params ∧ (handOn p d s).clip = s.clip ∧ (handOn p d s).slot = s.slot ∧
    (handOn p d s).prog = s.prog ∧ (handOn p d s).queue = s.queue ∧ (handOn p d s).waitList = s.waitList ∧
    (handOn p d s).store = s.store ∧ (handOn p d s).tmn = s.tmn ∧ (handOn p d s).hwy = s.hwy ∧
    (handOn p d s).words = s.words ∧ (handOn p d s).port = s.port ∧ (handOn p d s).callQ = s.callQ ∧
    (handOn p d s).floorQ = s.floorQ ∧ (handOn p d s).maintQ = s.maintQ := by
  unfold handOn
  try dsimp only
  repeat' apply And.intro
  all_goals simp

/-- What `linkUp` leaves. -/
@[simp] theorem linkUp_keeps (p : Nat) (d : Int) (b : Bool) (s : State) :
    (linkUp p d b s).pending = s.pending ∧ (linkUp p d b s).mode = s.mode ∧
    (linkUp p d b s).resetHeld = s.resetHeld ∧ (linkUp p d b s).pos = s.pos ∧ (linkUp p d b s).lev = s.lev ∧
    (linkUp p d b s).params = s.params ∧ (linkUp p d b s).mix = s.mix ∧ (linkUp p d b s).clip = s.clip ∧
    (linkUp p d b s).slot = s.slot ∧ (linkUp p d b s).prog = s.prog ∧ (linkUp p d b s).queue = s.queue ∧
    (linkUp p d b s).waitList = s.waitList ∧ (linkUp p d b s).store = s.store ∧ (linkUp p d b s).tmn = s.tmn ∧
    (linkUp p d b s).hwy = s.hwy ∧ (linkUp p d b s).words = s.words ∧ (linkUp p d b s).port = s.port := by
  unfold linkUp
  try dsimp only
  repeat' apply And.intro
  all_goals simp

/-- What `linkDown` leaves. -/
@[simp] theorem linkDown_keeps (p : Nat) (s : State) :
    (linkDown p s).pending = s.pending ∧ (linkDown p s).mode = s.mode ∧
    (linkDown p s).resetHeld = s.resetHeld ∧ (linkDown p s).lev = s.lev ∧ (linkDown p s).params = s.params ∧
    (linkDown p s).mix = s.mix ∧ (linkDown p s).clip = s.clip ∧ (linkDown p s).slot = s.slot ∧
    (linkDown p s).prog = s.prog ∧ (linkDown p s).queue = s.queue ∧ (linkDown p s).waitList = s.waitList ∧
    (linkDown p s).store = s.store ∧ (linkDown p s).tmn = s.tmn ∧ (linkDown p s).hwy = s.hwy ∧
    (linkDown p s).words = s.words ∧ (linkDown p s).port = s.port := by
  unfold linkDown
  try dsimp only
  repeat' apply And.intro
  all_goals simp

/-- What `debounce` leaves. -/
@[simp] theorem debounce_keeps (p : Nat) (b : Bool) (s : State) :
    (debounce p b s).pending = s.pending ∧ (debounce p b s).mode = s.mode ∧
    (debounce p b s).resetHeld = s.resetHeld ∧ (debounce p b s).ec = s.ec ∧ (debounce p b s).pool = s.pool ∧
    (debounce p b s).lev = s.lev ∧ (debounce p b s).params = s.params ∧ (debounce p b s).mix = s.mix ∧
    (debounce p b s).clip = s.clip ∧ (debounce p b s).slot = s.slot ∧ (debounce p b s).prog = s.prog ∧
    (debounce p b s).queue = s.queue ∧ (debounce p b s).waitList = s.waitList ∧
    (debounce p b s).store = s.store ∧ (debounce p b s).tmn = s.tmn ∧ (debounce p b s).hwy = s.hwy ∧
    (debounce p b s).words = s.words ∧ (debounce p b s).port = s.port := by
  unfold debounce
  simp only
  repeat' apply And.intro
  all_goals (repeat' split) <;> simp

/-- What `headsetWord` leaves. -/
@[simp] theorem headsetWord_keeps (p : Nat) (w : BitVec 19) (s : State) :
    (headsetWord p w s).pending = s.pending ∧ (headsetWord p w s).mode = s.mode ∧
    (headsetWord p w s).resetHeld = s.resetHeld ∧ (headsetWord p w s).params = s.params ∧
    (headsetWord p w s).clip = s.clip ∧ (headsetWord p w s).slot = s.slot ∧ (headsetWord p w s).prog = s.prog ∧
    (headsetWord p w s).queue = s.queue ∧ (headsetWord p w s).waitList = s.waitList ∧
    (headsetWord p w s).store = s.store ∧ (headsetWord p w s).tmn = s.tmn ∧ (headsetWord p w s).hwy = s.hwy ∧
    (headsetWord p w s).words = s.words ∧ (headsetWord p w s).port = s.port := by
  unfold headsetWord goodWord badWord
  simp only
  repeat' apply And.intro
  all_goals (repeat' split) <;> simp

/-- What `takeWord` leaves. -/
@[simp] theorem takeWord_keeps (p : Nat) (w : BitVec 19) (s : State) :
    (takeWord p w s).pending = s.pending ∧ (takeWord p w s).mode = s.mode ∧
    (takeWord p w s).resetHeld = s.resetHeld ∧ (takeWord p w s).params = s.params ∧
    (takeWord p w s).clip = s.clip ∧ (takeWord p w s).slot = s.slot ∧ (takeWord p w s).prog = s.prog ∧
    (takeWord p w s).queue = s.queue ∧ (takeWord p w s).waitList = s.waitList ∧
    (takeWord p w s).store = s.store ∧ (takeWord p w s).tmn = s.tmn ∧ (takeWord p w s).hwy = s.hwy ∧
    (takeWord p w s).port = s.port := by
  unfold takeWord
  try dsimp only
  repeat' apply And.intro
  all_goals simp

/-- What `fillWords` leaves. -/
@[simp] theorem fillWords_keeps (n : Nat) (s : State) :
    (fillWords n s).pending = s.pending ∧ (fillWords n s).mode = s.mode ∧
    (fillWords n s).resetHeld = s.resetHeld ∧ (fillWords n s).params = s.params ∧
    (fillWords n s).clip = s.clip ∧ (fillWords n s).slot = s.slot ∧ (fillWords n s).prog = s.prog ∧
    (fillWords n s).queue = s.queue ∧ (fillWords n s).waitList = s.waitList ∧ (fillWords n s).store = s.store ∧
    (fillWords n s).tmn = s.tmn ∧ (fillWords n s).hwy = s.hwy ∧ (fillWords n s).port = s.port := by
  induction n generalizing s with
  | zero => simp [fillWords]
  | succ n ih => simp [fillWords, ih]

/-- What `missingWords` leaves. -/
@[simp] theorem missingWords_keeps (s : State) :
    (missingWords s).pending = s.pending ∧ (missingWords s).mode = s.mode ∧
    (missingWords s).resetHeld = s.resetHeld ∧ (missingWords s).params = s.params ∧
    (missingWords s).clip = s.clip ∧ (missingWords s).slot = s.slot ∧ (missingWords s).prog = s.prog ∧
    (missingWords s).queue = s.queue ∧ (missingWords s).waitList = s.waitList ∧
    (missingWords s).store = s.store ∧ (missingWords s).tmn = s.tmn ∧ (missingWords s).hwy = s.hwy ∧
    (missingWords s).port = s.port := by
  unfold missingWords
  try dsimp only
  repeat' apply And.intro
  all_goals simp

/-- What `headsetWordArrival` leaves. -/
@[simp] theorem headsetWordArrival_keeps (p : Nat) (w : BitVec 19) (s : State) :
    (headsetWordArrival p w s).pending = s.pending ∧ (headsetWordArrival p w s).mode = s.mode ∧
    (headsetWordArrival p w s).resetHeld = s.resetHeld ∧ (headsetWordArrival p w s).params = s.params ∧
    (headsetWordArrival p w s).clip = s.clip ∧ (headsetWordArrival p w s).slot = s.slot ∧
    (headsetWordArrival p w s).prog = s.prog ∧ (headsetWordArrival p w s).queue = s.queue ∧
    (headsetWordArrival p w s).waitList = s.waitList ∧ (headsetWordArrival p w s).store = s.store ∧
    (headsetWordArrival p w s).tmn = s.tmn ∧ (headsetWordArrival p w s).hwy = s.hwy ∧
    (headsetWordArrival p w s).port = s.port := by
  unfold headsetWordArrival
  try dsimp only
  repeat' apply And.intro
  all_goals (repeat' split) <;> simp

/-- What `formAll` leaves. -/
@[simp] theorem formAll_keeps (s : State) :
    (formAll s).pending = s.pending ∧ (formAll s).mode = s.mode ∧ (formAll s).resetHeld = s.resetHeld ∧
    (formAll s).pos = s.pos ∧ (formAll s).link = s.link ∧ (formAll s).ec = s.ec ∧ (formAll s).pool = s.pool ∧
    (formAll s).lev = s.lev ∧ (formAll s).params = s.params ∧ (formAll s).clip = s.clip ∧
    (formAll s).slot = s.slot ∧ (formAll s).prog = s.prog ∧ (formAll s).queue = s.queue ∧
    (formAll s).waitList = s.waitList ∧ (formAll s).store = s.store ∧ (formAll s).tmn = s.tmn ∧
    (formAll s).hwy = s.hwy ∧ (formAll s).words = s.words ∧ (formAll s).port = s.port ∧
    (formAll s).callQ = s.callQ ∧ (formAll s).floorQ = s.floorQ ∧ (formAll s).maintQ = s.maintQ := by
  refine forPositions_keeps
    (fun t =>
      t.pending = s.pending ∧ t.mode = s.mode ∧ t.resetHeld = s.resetHeld ∧ t.pos = s.pos ∧ t.link = s.link ∧
      t.ec = s.ec ∧ t.pool = s.pool ∧ t.lev = s.lev ∧ t.params = s.params ∧ t.clip = s.clip ∧ t.slot = s.slot ∧
      t.prog = s.prog ∧ t.queue = s.queue ∧ t.waitList = s.waitList ∧ t.store = s.store ∧ t.tmn = s.tmn ∧
      t.hwy = s.hwy ∧ t.words = s.words ∧ t.port = s.port ∧ t.callQ = s.callQ ∧ t.floorQ = s.floorQ ∧
      t.maintQ = s.maintQ)
    _ ?_ s (by simp)
  intro p t _ ht
  simp [ht]

/-- What `blockWork` leaves. -/
@[simp] theorem blockWork_keeps (s : State) :
    (blockWork s).pending = s.pending ∧ (blockWork s).mode = s.mode ∧ (blockWork s).resetHeld = s.resetHeld ∧
    (blockWork s).pos = s.pos ∧ (blockWork s).link = s.link ∧ (blockWork s).ec = s.ec ∧
    (blockWork s).pool = s.pool ∧ (blockWork s).params = s.params ∧ (blockWork s).clip = s.clip ∧
    (blockWork s).slot = s.slot ∧ (blockWork s).prog = s.prog ∧ (blockWork s).queue = s.queue ∧
    (blockWork s).waitList = s.waitList ∧ (blockWork s).store = s.store ∧ (blockWork s).hwy = s.hwy ∧
    (blockWork s).words = s.words ∧ (blockWork s).port = s.port ∧ (blockWork s).callQ = s.callQ ∧
    (blockWork s).floorQ = s.floorQ ∧ (blockWork s).maintQ = s.maintQ := by
  unfold blockWork
  try dsimp only
  repeat' apply And.intro
  all_goals simp

/-- What `graceExpiry` leaves. -/
@[simp] theorem graceExpiry_keeps (s : State) :
    (graceExpiry s).pending = s.pending ∧ (graceExpiry s).mode = s.mode ∧
    (graceExpiry s).resetHeld = s.resetHeld ∧ (graceExpiry s).link = s.link ∧ (graceExpiry s).ec = s.ec ∧
    (graceExpiry s).pool = s.pool ∧ (graceExpiry s).lev = s.lev ∧ (graceExpiry s).params = s.params ∧
    (graceExpiry s).mix = s.mix ∧ (graceExpiry s).clip = s.clip ∧ (graceExpiry s).store = s.store ∧
    (graceExpiry s).hwy = s.hwy ∧ (graceExpiry s).words = s.words ∧ (graceExpiry s).port = s.port := by
  unfold graceExpiry
  try dsimp only
  repeat' apply And.intro
  all_goals (repeat' split) <;> simp

/-- What `blockBoundary` leaves. -/
@[simp] theorem blockBoundary_keeps (s : State) :
    (blockBoundary s).pending = s.pending ∧ (blockBoundary s).mode = s.mode ∧
    (blockBoundary s).resetHeld = s.resetHeld ∧ (blockBoundary s).params = s.params ∧
    (blockBoundary s).clip = s.clip ∧ (blockBoundary s).store = s.store ∧ (blockBoundary s).hwy = s.hwy ∧
    (blockBoundary s).port = s.port := by
  unfold blockBoundary
  try dsimp only
  repeat' apply And.intro
  all_goals (repeat' split) <;> simp

/-- What `graceTimerExpiry` leaves. -/
@[simp] theorem graceTimerExpiry_keeps (s : State) :
    (graceTimerExpiry s).pending = s.pending ∧ (graceTimerExpiry s).mode = s.mode ∧
    (graceTimerExpiry s).resetHeld = s.resetHeld ∧ (graceTimerExpiry s).params = s.params ∧
    (graceTimerExpiry s).clip = s.clip ∧ (graceTimerExpiry s).store = s.store ∧
    (graceTimerExpiry s).hwy = s.hwy ∧ (graceTimerExpiry s).port = s.port := by
  unfold graceTimerExpiry
  try dsimp only
  repeat' apply And.intro
  all_goals (repeat' split) <;> simp

/-- What `sendHeadset` leaves. -/
@[simp] theorem sendHeadset_keeps (p : Nat) (s : State) :
    (sendHeadset p s).pending = s.pending ∧ (sendHeadset p s).mode = s.mode ∧
    (sendHeadset p s).resetHeld = s.resetHeld ∧ (sendHeadset p s).pos = s.pos ∧
    (sendHeadset p s).pool = s.pool ∧ (sendHeadset p s).lev = s.lev ∧ (sendHeadset p s).params = s.params ∧
    (sendHeadset p s).mix = s.mix ∧ (sendHeadset p s).clip = s.clip ∧ (sendHeadset p s).slot = s.slot ∧
    (sendHeadset p s).prog = s.prog ∧ (sendHeadset p s).queue = s.queue ∧
    (sendHeadset p s).waitList = s.waitList ∧ (sendHeadset p s).store = s.store ∧
    (sendHeadset p s).tmn = s.tmn ∧ (sendHeadset p s).hwy = s.hwy ∧ (sendHeadset p s).words = s.words ∧
    (sendHeadset p s).port = s.port ∧ (sendHeadset p s).callQ = s.callQ ∧ (sendHeadset p s).floorQ = s.floorQ ∧
    (sendHeadset p s).maintQ = s.maintQ := by
  unfold sendHeadset
  try dsimp only
  repeat' apply And.intro
  all_goals simp

/-- What `sendHighway` leaves. -/
@[simp] theorem sendHighway_keeps (rx : Option (Tab 32 Byte)) (s : State) :
    (sendHighway rx s).pending = s.pending ∧ (sendHighway rx s).mode = s.mode ∧
    (sendHighway rx s).resetHeld = s.resetHeld ∧ (sendHighway rx s).pos = s.pos ∧
    (sendHighway rx s).link = s.link ∧ (sendHighway rx s).ec = s.ec ∧ (sendHighway rx s).pool = s.pool ∧
    (sendHighway rx s).lev = s.lev ∧ (sendHighway rx s).params = s.params ∧ (sendHighway rx s).mix = s.mix ∧
    (sendHighway rx s).clip = s.clip ∧ (sendHighway rx s).slot = s.slot ∧ (sendHighway rx s).prog = s.prog ∧
    (sendHighway rx s).queue = s.queue ∧ (sendHighway rx s).waitList = s.waitList ∧
    (sendHighway rx s).store = s.store ∧ (sendHighway rx s).tmn = s.tmn ∧ (sendHighway rx s).words = s.words ∧
    (sendHighway rx s).port = s.port ∧ (sendHighway rx s).callQ = s.callQ ∧
    (sendHighway rx s).floorQ = s.floorQ ∧ (sendHighway rx s).maintQ = s.maintQ := by
  unfold sendHighway
  try dsimp only
  repeat' apply And.intro
  all_goals simp

/-- What `frameWork` leaves. -/
@[simp] theorem frameWork_keeps (s : State) :
    (frameWork s).pending = s.pending ∧ (frameWork s).mode = s.mode ∧ (frameWork s).resetHeld = s.resetHeld ∧
    (frameWork s).pool = s.pool ∧ (frameWork s).lev = s.lev ∧ (frameWork s).params = s.params ∧
    (frameWork s).port = s.port := by
  have hpos : ∀ f : Nat → State → State, ∀ u : State, (∀ p t, (f p t).pending = t.pending ∧ (f p t).mode = t.mode ∧
      (f p t).resetHeld = t.resetHeld ∧ (f p t).pool = t.pool ∧ (f p t).lev = t.lev ∧ (f p t).params = t.params ∧
      (f p t).port = t.port) → (forPositions f u).pending = u.pending ∧ (forPositions f u).mode = u.mode ∧
      (forPositions f u).resetHeld = u.resetHeld ∧ (forPositions f u).pool = u.pool ∧ (forPositions f u).lev = u.lev ∧
      (forPositions f u).params = u.params ∧ (forPositions f u).port = u.port := by
    intro f s hf
    refine forPositions_keeps
      (fun t =>
      t.pending = s.pending ∧ t.mode = s.mode ∧ t.resetHeld = s.resetHeld ∧ t.pool = s.pool ∧ t.lev = s.lev ∧
      t.params = s.params ∧ t.port = s.port)
      f ?_ s (by simp)
    intro p t _ ht
    simp [hf p t, ht]
  have hslot : ∀ u : State, (forSlots slotFrame u).pending = u.pending ∧ (forSlots slotFrame u).mode = u.mode ∧
      (forSlots slotFrame u).resetHeld = u.resetHeld ∧ (forSlots slotFrame u).pool = u.pool ∧
      (forSlots slotFrame u).lev = u.lev ∧ (forSlots slotFrame u).params = u.params ∧
      (forSlots slotFrame u).port = u.port := by
    intro s
    refine forSlots_keeps
      (fun t =>
      t.pending = s.pending ∧ t.mode = s.mode ∧ t.resetHeld = s.resetHeld ∧ t.pool = s.pool ∧ t.lev = s.lev ∧
      t.params = s.params ∧ t.port = s.port)
      _ ?_ s (by simp)
    intro p t _ ht
    simp [ht]
  unfold frameWork
  simp [hslot, hpos sendHeadset _ (fun p t => by simp), hpos muteStep _ (fun p t => by simp)]

/-- What `frameBoundary` leaves. -/
@[simp] theorem frameBoundary_keeps (s : State) :
    (frameBoundary s).pending = s.pending ∧ (frameBoundary s).mode = s.mode ∧
    (frameBoundary s).resetHeld = s.resetHeld ∧ (frameBoundary s).params = s.params ∧
    (frameBoundary s).port = s.port := by
  unfold frameBoundary
  try dsimp only
  repeat' apply And.intro
  all_goals (repeat' split) <;> simp

/-- What `makeBoundary` leaves. -/
@[simp] theorem makeBoundary_keeps (n : NextFrame) (s : State) :
    (makeBoundary n s).pending = s.pending ∧ (makeBoundary n s).mode = s.mode ∧
    (makeBoundary n s).resetHeld = s.resetHeld ∧ (makeBoundary n s).params = s.params ∧
    (makeBoundary n s).clip = s.clip ∧ (makeBoundary n s).store = s.store ∧ (makeBoundary n s).hwy = s.hwy ∧
    (makeBoundary n s).port = s.port := by
  unfold makeBoundary
  try dsimp only
  repeat' apply And.intro
  all_goals simp

/-- What `postBoth` leaves. -/
@[simp] theorem postBoth_keeps (k : NoticeKind) (s : State) :
    (postBoth k s).pending = s.pending ∧ (postBoth k s).mode = s.mode ∧
    (postBoth k s).resetHeld = s.resetHeld ∧ (postBoth k s).pos = s.pos ∧ (postBoth k s).link = s.link ∧
    (postBoth k s).ec = s.ec ∧ (postBoth k s).pool = s.pool ∧ (postBoth k s).lev = s.lev ∧
    (postBoth k s).params = s.params ∧ (postBoth k s).mix = s.mix ∧ (postBoth k s).clip = s.clip ∧
    (postBoth k s).slot = s.slot ∧ (postBoth k s).prog = s.prog ∧ (postBoth k s).queue = s.queue ∧
    (postBoth k s).waitList = s.waitList ∧ (postBoth k s).store = s.store ∧ (postBoth k s).tmn = s.tmn ∧
    (postBoth k s).hwy = s.hwy ∧ (postBoth k s).words = s.words ∧ (postBoth k s).port = s.port := by
  unfold postBoth
  try dsimp only
  repeat' apply And.intro
  all_goals simp

/-- What `lock` leaves. -/
@[simp] theorem lock_keeps (rx : Tab 32 Byte) (s : State) :
    (lock rx s).pending = s.pending ∧ (lock rx s).mode = s.mode ∧ (lock rx s).resetHeld = s.resetHeld ∧
    (lock rx s).params = s.params ∧ (lock rx s).clip = s.clip ∧ (lock rx s).store = s.store ∧
    (lock rx s).hwy = s.hwy ∧ (lock rx s).port = s.port := by
  unfold lock
  simp only
  repeat' apply And.intro
  all_goals (split <;> simp)

/-- What `lineSync` leaves. -/
@[simp] theorem lineSync_keeps (rx : Tab 32 Byte) (s : State) :
    (lineSync rx s).pending = s.pending ∧ (lineSync rx s).mode = s.mode ∧
    (lineSync rx s).resetHeld = s.resetHeld ∧ (lineSync rx s).params = s.params ∧
    (lineSync rx s).clip = s.clip ∧ (lineSync rx s).store = s.store ∧ (lineSync rx s).hwy = s.hwy ∧
    (lineSync rx s).port = s.port := by
  unfold lineSync
  simp only
  repeat' apply And.intro
  all_goals (repeat' split) <;> simp

/-- What `acquisitionTimeout` leaves. -/
@[simp] theorem acquisitionTimeout_keeps (s : State) :
    (acquisitionTimeout s).pending = s.pending ∧ (acquisitionTimeout s).mode = s.mode ∧
    (acquisitionTimeout s).resetHeld = s.resetHeld ∧ (acquisitionTimeout s).pos = s.pos ∧
    (acquisitionTimeout s).link = s.link ∧ (acquisitionTimeout s).ec = s.ec ∧
    (acquisitionTimeout s).pool = s.pool ∧ (acquisitionTimeout s).lev = s.lev ∧
    (acquisitionTimeout s).params = s.params ∧ (acquisitionTimeout s).mix = s.mix ∧
    (acquisitionTimeout s).clip = s.clip ∧ (acquisitionTimeout s).slot = s.slot ∧
    (acquisitionTimeout s).prog = s.prog ∧ (acquisitionTimeout s).queue = s.queue ∧
    (acquisitionTimeout s).waitList = s.waitList ∧ (acquisitionTimeout s).store = s.store ∧
    (acquisitionTimeout s).hwy = s.hwy ∧ (acquisitionTimeout s).words = s.words ∧
    (acquisitionTimeout s).port = s.port ∧ (acquisitionTimeout s).callQ = s.callQ ∧
    (acquisitionTimeout s).floorQ = s.floorQ ∧ (acquisitionTimeout s).maintQ = s.maintQ := by
  unfold acquisitionTimeout
  try dsimp only
  repeat' apply And.intro
  all_goals (repeat' split) <;> simp

/-- What `clockFail` leaves. -/
@[simp] theorem clockFail_keeps (s : State) :
    (clockFail s).pending = s.pending ∧ (clockFail s).mode = s.mode ∧ (clockFail s).resetHeld = s.resetHeld ∧
    (clockFail s).params = s.params ∧ (clockFail s).clip = s.clip ∧ (clockFail s).store = s.store ∧
    (clockFail s).hwy = s.hwy ∧ (clockFail s).port = s.port := by
  unfold clockFail
  simp only
  repeat' apply And.intro
  all_goals (split <;> simp)


/-! ### Clips and the store (chapters 7 and 8) -/

/-- What `programmeTaken` leaves. -/
@[simp] theorem programmeTaken_keeps (k : Nat) (c : Option Nat) (s : State) :
    (programmeTaken k c s).pending = s.pending ∧ (programmeTaken k c s).mode = s.mode ∧
    (programmeTaken k c s).resetHeld = s.resetHeld ∧ (programmeTaken k c s).pos = s.pos ∧
    (programmeTaken k c s).link = s.link ∧ (programmeTaken k c s).ec = s.ec ∧
    (programmeTaken k c s).pool = s.pool ∧ (programmeTaken k c s).lev = s.lev ∧
    (programmeTaken k c s).params = s.params ∧ (programmeTaken k c s).mix = s.mix ∧
    (programmeTaken k c s).queue = s.queue ∧ (programmeTaken k c s).waitList = s.waitList ∧
    (programmeTaken k c s).store = s.store ∧ (programmeTaken k c s).tmn = s.tmn ∧
    (programmeTaken k c s).hwy = s.hwy ∧ (programmeTaken k c s).words = s.words ∧
    (programmeTaken k c s).port = s.port ∧ (programmeTaken k c s).callQ = s.callQ ∧
    (programmeTaken k c s).floorQ = s.floorQ ∧ (programmeTaken k c s).maintQ = s.maintQ := by
  unfold programmeTaken
  simp only
  repeat' apply And.intro
  all_goals (repeat' split) <;> simp

/-- What `programmePassEnd` leaves. -/
@[simp] theorem programmePassEnd_keeps (k : Nat) (s : State) :
    (programmePassEnd k s).pending = s.pending ∧ (programmePassEnd k s).mode = s.mode ∧
    (programmePassEnd k s).resetHeld = s.resetHeld ∧ (programmePassEnd k s).pos = s.pos ∧
    (programmePassEnd k s).link = s.link ∧ (programmePassEnd k s).ec = s.ec ∧
    (programmePassEnd k s).pool = s.pool ∧ (programmePassEnd k s).lev = s.lev ∧
    (programmePassEnd k s).params = s.params ∧ (programmePassEnd k s).mix = s.mix ∧
    (programmePassEnd k s).queue = s.queue ∧ (programmePassEnd k s).waitList = s.waitList ∧
    (programmePassEnd k s).store = s.store ∧ (programmePassEnd k s).tmn = s.tmn ∧
    (programmePassEnd k s).hwy = s.hwy ∧ (programmePassEnd k s).words = s.words ∧
    (programmePassEnd k s).port = s.port := by
  unfold programmePassEnd
  simp only
  repeat' apply And.intro
  all_goals (repeat' split) <;> simp

/-- What `passEnd` leaves. -/
@[simp] theorem passEnd_keeps (i : Nat) (s : State) :
    (passEnd i s).pending = s.pending ∧ (passEnd i s).mode = s.mode ∧ (passEnd i s).resetHeld = s.resetHeld ∧
    (passEnd i s).pos = s.pos ∧ (passEnd i s).link = s.link ∧ (passEnd i s).ec = s.ec ∧
    (passEnd i s).pool = s.pool ∧ (passEnd i s).lev = s.lev ∧ (passEnd i s).params = s.params ∧
    (passEnd i s).mix = s.mix ∧ (passEnd i s).queue = s.queue ∧ (passEnd i s).waitList = s.waitList ∧
    (passEnd i s).store = s.store ∧ (passEnd i s).tmn = s.tmn ∧ (passEnd i s).hwy = s.hwy ∧
    (passEnd i s).words = s.words ∧ (passEnd i s).port = s.port := by
  unfold passEnd
  simp only
  repeat' apply And.intro
  all_goals (repeat' split) <;> simp

/-- What `arrive` leaves. -/
@[simp] theorem arrive_keeps (i : Nat) (bs : List Byte) (s : State) :
    (arrive i bs s).pending = s.pending ∧ (arrive i bs s).mode = s.mode ∧
    (arrive i bs s).resetHeld = s.resetHeld ∧ (arrive i bs s).pos = s.pos ∧ (arrive i bs s).link = s.link ∧
    (arrive i bs s).ec = s.ec ∧ (arrive i bs s).pool = s.pool ∧ (arrive i bs s).lev = s.lev ∧
    (arrive i bs s).params = s.params ∧ (arrive i bs s).mix = s.mix ∧ (arrive i bs s).queue = s.queue ∧
    (arrive i bs s).waitList = s.waitList ∧ (arrive i bs s).store = s.store ∧ (arrive i bs s).tmn = s.tmn ∧
    (arrive i bs s).hwy = s.hwy ∧ (arrive i bs s).words = s.words ∧ (arrive i bs s).port = s.port := by
  unfold arrive
  simp only
  repeat' apply And.intro
  all_goals (split <;> simp)

/-- What `fetchGrant` leaves. -/
@[simp] theorem fetchGrant_keeps (s : State) :
    (fetchGrant s).pending = s.pending ∧ (fetchGrant s).mode = s.mode ∧
    (fetchGrant s).resetHeld = s.resetHeld ∧ (fetchGrant s).pos = s.pos ∧ (fetchGrant s).link = s.link ∧
    (fetchGrant s).ec = s.ec ∧ (fetchGrant s).pool = s.pool ∧ (fetchGrant s).lev = s.lev ∧
    (fetchGrant s).params = s.params ∧ (fetchGrant s).mix = s.mix ∧ (fetchGrant s).clip = s.clip ∧
    (fetchGrant s).slot = s.slot ∧ (fetchGrant s).prog = s.prog ∧ (fetchGrant s).queue = s.queue ∧
    (fetchGrant s).waitList = s.waitList ∧ (fetchGrant s).tmn = s.tmn ∧ (fetchGrant s).hwy = s.hwy ∧
    (fetchGrant s).words = s.words ∧ (fetchGrant s).port = s.port ∧ (fetchGrant s).callQ = s.callQ ∧
    (fetchGrant s).floorQ = s.floorQ ∧ (fetchGrant s).maintQ = s.maintQ := by
  unfold fetchGrant
  try dsimp only
  repeat' apply And.intro
  all_goals (repeat' split) <;> simp

/-- What `fetchArrival` leaves. -/
@[simp] theorem fetchArrival_keeps (bs : List Byte) (s : State) :
    (fetchArrival bs s).pending = s.pending ∧ (fetchArrival bs s).mode = s.mode ∧
    (fetchArrival bs s).resetHeld = s.resetHeld ∧ (fetchArrival bs s).pos = s.pos ∧
    (fetchArrival bs s).link = s.link ∧ (fetchArrival bs s).ec = s.ec ∧ (fetchArrival bs s).pool = s.pool ∧
    (fetchArrival bs s).lev = s.lev ∧ (fetchArrival bs s).params = s.params ∧ (fetchArrival bs s).mix = s.mix ∧
    (fetchArrival bs s).queue = s.queue ∧ (fetchArrival bs s).waitList = s.waitList ∧
    (fetchArrival bs s).tmn = s.tmn ∧ (fetchArrival bs s).hwy = s.hwy ∧ (fetchArrival bs s).words = s.words ∧
    (fetchArrival bs s).port = s.port := by
  unfold fetchArrival
  simp only
  repeat' apply And.intro
  all_goals (repeat' split) <;> simp

/-- What `fetchTimeout` leaves. -/
@[simp] theorem fetchTimeout_keeps (s : State) :
    (fetchTimeout s).pending = s.pending ∧ (fetchTimeout s).mode = s.mode ∧
    (fetchTimeout s).resetHeld = s.resetHeld ∧ (fetchTimeout s).pos = s.pos ∧ (fetchTimeout s).link = s.link ∧
    (fetchTimeout s).ec = s.ec ∧ (fetchTimeout s).pool = s.pool ∧ (fetchTimeout s).lev = s.lev ∧
    (fetchTimeout s).params = s.params ∧ (fetchTimeout s).mix = s.mix ∧ (fetchTimeout s).clip = s.clip ∧
    (fetchTimeout s).slot = s.slot ∧ (fetchTimeout s).prog = s.prog ∧ (fetchTimeout s).queue = s.queue ∧
    (fetchTimeout s).waitList = s.waitList ∧ (fetchTimeout s).tmn = s.tmn ∧ (fetchTimeout s).hwy = s.hwy ∧
    (fetchTimeout s).words = s.words ∧ (fetchTimeout s).port = s.port ∧ (fetchTimeout s).callQ = s.callQ ∧
    (fetchTimeout s).floorQ = s.floorQ ∧ (fetchTimeout s).maintQ = s.maintQ := by
  unfold fetchTimeout
  try dsimp only
  repeat' apply And.intro
  all_goals (repeat' split) <;> simp

/-- What `fenceRange` leaves. -/
@[simp] theorem fenceRange_keeps (a n : Nat) (s : State) :
    (fenceRange a n s).pending = s.pending ∧ (fenceRange a n s).mode = s.mode ∧
    (fenceRange a n s).resetHeld = s.resetHeld ∧ (fenceRange a n s).pos = s.pos ∧
    (fenceRange a n s).link = s.link ∧ (fenceRange a n s).ec = s.ec ∧ (fenceRange a n s).pool = s.pool ∧
    (fenceRange a n s).lev = s.lev ∧ (fenceRange a n s).params = s.params ∧ (fenceRange a n s).mix = s.mix ∧
    (fenceRange a n s).slot = s.slot ∧ (fenceRange a n s).prog = s.prog ∧ (fenceRange a n s).queue = s.queue ∧
    (fenceRange a n s).waitList = s.waitList ∧ (fenceRange a n s).store = s.store ∧
    (fenceRange a n s).tmn = s.tmn ∧ (fenceRange a n s).hwy = s.hwy ∧ (fenceRange a n s).words = s.words ∧
    (fenceRange a n s).port = s.port ∧ (fenceRange a n s).callQ = s.callQ ∧
    (fenceRange a n s).floorQ = s.floorQ ∧ (fenceRange a n s).maintQ = s.maintQ := by
  refine forClips_keeps
    (fun t =>
      t.pending = s.pending ∧ t.mode = s.mode ∧ t.resetHeld = s.resetHeld ∧ t.pos = s.pos ∧ t.link = s.link ∧
      t.ec = s.ec ∧ t.pool = s.pool ∧ t.lev = s.lev ∧ t.params = s.params ∧ t.mix = s.mix ∧ t.slot = s.slot ∧
      t.prog = s.prog ∧ t.queue = s.queue ∧ t.waitList = s.waitList ∧ t.store = s.store ∧ t.tmn = s.tmn ∧
      t.hwy = s.hwy ∧ t.words = s.words ∧ t.port = s.port ∧ t.callQ = s.callQ ∧ t.floorQ = s.floorQ ∧
      t.maintQ = s.maintQ)
    _ ?_ s (by simp)
  intro p t _ ht
  simp [ht]

/-- What `liftFences` leaves. -/
@[simp] theorem liftFences_keeps (s : State) :
    (liftFences s).pending = s.pending ∧ (liftFences s).mode = s.mode ∧
    (liftFences s).resetHeld = s.resetHeld ∧ (liftFences s).pos = s.pos ∧ (liftFences s).link = s.link ∧
    (liftFences s).ec = s.ec ∧ (liftFences s).pool = s.pool ∧ (liftFences s).lev = s.lev ∧
    (liftFences s).params = s.params ∧ (liftFences s).mix = s.mix ∧ (liftFences s).slot = s.slot ∧
    (liftFences s).prog = s.prog ∧ (liftFences s).queue = s.queue ∧ (liftFences s).waitList = s.waitList ∧
    (liftFences s).store = s.store ∧ (liftFences s).tmn = s.tmn ∧ (liftFences s).hwy = s.hwy ∧
    (liftFences s).words = s.words ∧ (liftFences s).port = s.port ∧ (liftFences s).callQ = s.callQ ∧
    (liftFences s).floorQ = s.floorQ ∧ (liftFences s).maintQ = s.maintQ := by
  refine forClips_keeps
    (fun t =>
      t.pending = s.pending ∧ t.mode = s.mode ∧ t.resetHeld = s.resetHeld ∧ t.pos = s.pos ∧ t.link = s.link ∧
      t.ec = s.ec ∧ t.pool = s.pool ∧ t.lev = s.lev ∧ t.params = s.params ∧ t.mix = s.mix ∧ t.slot = s.slot ∧
      t.prog = s.prog ∧ t.queue = s.queue ∧ t.waitList = s.waitList ∧ t.store = s.store ∧ t.tmn = s.tmn ∧
      t.hwy = s.hwy ∧ t.words = s.words ∧ t.port = s.port ∧ t.callQ = s.callQ ∧ t.floorQ = s.floorQ ∧
      t.maintQ = s.maintQ)
    _ ?_ s (by simp)
  intro p t _ ht
  simp [ht]

/-- What `storeDone` leaves. -/
@[simp] theorem storeDone_keeps (c : Cause) (s : State) :
    (storeDone c s).pending = s.pending ∧ (storeDone c s).mode = s.mode ∧
    (storeDone c s).resetHeld = s.resetHeld ∧ (storeDone c s).pos = s.pos ∧ (storeDone c s).link = s.link ∧
    (storeDone c s).ec = s.ec ∧ (storeDone c s).pool = s.pool ∧ (storeDone c s).lev = s.lev ∧
    (storeDone c s).params = s.params ∧ (storeDone c s).mix = s.mix ∧ (storeDone c s).slot = s.slot ∧
    (storeDone c s).prog = s.prog ∧ (storeDone c s).queue = s.queue ∧ (storeDone c s).waitList = s.waitList ∧
    (storeDone c s).tmn = s.tmn ∧ (storeDone c s).hwy = s.hwy ∧ (storeDone c s).words = s.words ∧
    (storeDone c s).port = s.port := by
  unfold storeDone
  try dsimp only
  repeat' apply And.intro
  all_goals (repeat' split) <;> simp

/-- What `stepEnded` leaves. -/
@[simp] theorem stepEnded_keeps (s : State) :
    (stepEnded s).pending = s.pending ∧ (stepEnded s).mode = s.mode ∧ (stepEnded s).resetHeld = s.resetHeld ∧
    (stepEnded s).pos = s.pos ∧ (stepEnded s).link = s.link ∧ (stepEnded s).ec = s.ec ∧
    (stepEnded s).pool = s.pool ∧ (stepEnded s).lev = s.lev ∧ (stepEnded s).params = s.params ∧
    (stepEnded s).mix = s.mix ∧ (stepEnded s).slot = s.slot ∧ (stepEnded s).prog = s.prog ∧
    (stepEnded s).queue = s.queue ∧ (stepEnded s).waitList = s.waitList ∧ (stepEnded s).tmn = s.tmn ∧
    (stepEnded s).hwy = s.hwy ∧ (stepEnded s).words = s.words ∧ (stepEnded s).port = s.port := by
  unfold stepEnded
  try dsimp only
  repeat' apply And.intro
  all_goals (repeat' split) <;> simp

/-- What `operationStepStart` leaves. -/
@[simp] theorem operationStepStart_keeps (s : State) :
    (operationStepStart s).pending = s.pending ∧ (operationStepStart s).mode = s.mode ∧
    (operationStepStart s).resetHeld = s.resetHeld ∧ (operationStepStart s).pos = s.pos ∧
    (operationStepStart s).link = s.link ∧ (operationStepStart s).ec = s.ec ∧
    (operationStepStart s).pool = s.pool ∧ (operationStepStart s).lev = s.lev ∧
    (operationStepStart s).params = s.params ∧ (operationStepStart s).mix = s.mix ∧
    (operationStepStart s).clip = s.clip ∧ (operationStepStart s).slot = s.slot ∧
    (operationStepStart s).prog = s.prog ∧ (operationStepStart s).queue = s.queue ∧
    (operationStepStart s).waitList = s.waitList ∧ (operationStepStart s).tmn = s.tmn ∧
    (operationStepStart s).hwy = s.hwy ∧ (operationStepStart s).words = s.words ∧
    (operationStepStart s).port = s.port ∧ (operationStepStart s).callQ = s.callQ ∧
    (operationStepStart s).floorQ = s.floorQ ∧ (operationStepStart s).maintQ = s.maintQ := by
  unfold operationStepStart
  try dsimp only
  repeat' apply And.intro
  all_goals (repeat' split) <;> simp

/-- What `stepStoreReady` leaves. -/
@[simp] theorem stepStoreReady_keeps (s : State) :
    (stepStoreReady s).pending = s.pending ∧ (stepStoreReady s).mode = s.mode ∧
    (stepStoreReady s).resetHeld = s.resetHeld ∧ (stepStoreReady s).pos = s.pos ∧
    (stepStoreReady s).link = s.link ∧ (stepStoreReady s).ec = s.ec ∧ (stepStoreReady s).pool = s.pool ∧
    (stepStoreReady s).lev = s.lev ∧ (stepStoreReady s).params = s.params ∧ (stepStoreReady s).mix = s.mix ∧
    (stepStoreReady s).clip = s.clip ∧ (stepStoreReady s).slot = s.slot ∧ (stepStoreReady s).prog = s.prog ∧
    (stepStoreReady s).queue = s.queue ∧ (stepStoreReady s).waitList = s.waitList ∧
    (stepStoreReady s).tmn = s.tmn ∧ (stepStoreReady s).hwy = s.hwy ∧ (stepStoreReady s).words = s.words ∧
    (stepStoreReady s).port = s.port ∧ (stepStoreReady s).callQ = s.callQ ∧
    (stepStoreReady s).floorQ = s.floorQ ∧ (stepStoreReady s).maintQ = s.maintQ := by
  unfold stepStoreReady
  try dsimp only
  repeat' apply And.intro
  all_goals (repeat' split) <;> simp

/-- What `eraseDone` leaves. -/
@[simp] theorem eraseDone_keeps (s : State) :
    (eraseDone s).pending = s.pending ∧ (eraseDone s).mode = s.mode ∧ (eraseDone s).resetHeld = s.resetHeld ∧
    (eraseDone s).pos = s.pos ∧ (eraseDone s).link = s.link ∧ (eraseDone s).ec = s.ec ∧
    (eraseDone s).pool = s.pool ∧ (eraseDone s).lev = s.lev ∧ (eraseDone s).params = s.params ∧
    (eraseDone s).mix = s.mix ∧ (eraseDone s).slot = s.slot ∧ (eraseDone s).prog = s.prog ∧
    (eraseDone s).queue = s.queue ∧ (eraseDone s).waitList = s.waitList ∧ (eraseDone s).tmn = s.tmn ∧
    (eraseDone s).hwy = s.hwy ∧ (eraseDone s).words = s.words ∧ (eraseDone s).port = s.port := by
  unfold eraseDone
  try dsimp only
  repeat' apply And.intro
  all_goals (repeat' split) <;> simp

/-- What `eraseTimeout` leaves. -/
@[simp] theorem eraseTimeout_keeps (s : State) :
    (eraseTimeout s).pending = s.pending ∧ (eraseTimeout s).mode = s.mode ∧
    (eraseTimeout s).resetHeld = s.resetHeld ∧ (eraseTimeout s).pos = s.pos ∧ (eraseTimeout s).link = s.link ∧
    (eraseTimeout s).ec = s.ec ∧ (eraseTimeout s).pool = s.pool ∧ (eraseTimeout s).lev = s.lev ∧
    (eraseTimeout s).params = s.params ∧ (eraseTimeout s).mix = s.mix ∧ (eraseTimeout s).slot = s.slot ∧
    (eraseTimeout s).prog = s.prog ∧ (eraseTimeout s).queue = s.queue ∧
    (eraseTimeout s).waitList = s.waitList ∧ (eraseTimeout s).tmn = s.tmn ∧ (eraseTimeout s).hwy = s.hwy ∧
    (eraseTimeout s).words = s.words ∧ (eraseTimeout s).port = s.port := by
  unfold eraseTimeout
  try dsimp only
  repeat' apply And.intro
  all_goals (repeat' split) <;> simp

/-- What `suspendTimeout` leaves. -/
@[simp] theorem suspendTimeout_keeps (s : State) :
    (suspendTimeout s).pending = s.pending ∧ (suspendTimeout s).mode = s.mode ∧
    (suspendTimeout s).resetHeld = s.resetHeld ∧ (suspendTimeout s).pos = s.pos ∧
    (suspendTimeout s).link = s.link ∧ (suspendTimeout s).ec = s.ec ∧ (suspendTimeout s).pool = s.pool ∧
    (suspendTimeout s).lev = s.lev ∧ (suspendTimeout s).params = s.params ∧ (suspendTimeout s).mix = s.mix ∧
    (suspendTimeout s).slot = s.slot ∧ (suspendTimeout s).prog = s.prog ∧ (suspendTimeout s).queue = s.queue ∧
    (suspendTimeout s).waitList = s.waitList ∧ (suspendTimeout s).tmn = s.tmn ∧
    (suspendTimeout s).hwy = s.hwy ∧ (suspendTimeout s).words = s.words ∧ (suspendTimeout s).port = s.port := by
  unfold suspendTimeout
  try dsimp only
  repeat' apply And.intro
  all_goals (repeat' split) <;> simp

/-- What `eraseResume` leaves. -/
@[simp] theorem eraseResume_keeps (s : State) :
    (eraseResume s).pending = s.pending ∧ (eraseResume s).mode = s.mode ∧
    (eraseResume s).resetHeld = s.resetHeld ∧ (eraseResume s).pos = s.pos ∧ (eraseResume s).link = s.link ∧
    (eraseResume s).ec = s.ec ∧ (eraseResume s).pool = s.pool ∧ (eraseResume s).lev = s.lev ∧
    (eraseResume s).params = s.params ∧ (eraseResume s).mix = s.mix ∧ (eraseResume s).clip = s.clip ∧
    (eraseResume s).slot = s.slot ∧ (eraseResume s).prog = s.prog ∧ (eraseResume s).queue = s.queue ∧
    (eraseResume s).waitList = s.waitList ∧ (eraseResume s).tmn = s.tmn ∧ (eraseResume s).hwy = s.hwy ∧
    (eraseResume s).words = s.words ∧ (eraseResume s).port = s.port ∧ (eraseResume s).callQ = s.callQ ∧
    (eraseResume s).floorQ = s.floorQ ∧ (eraseResume s).maintQ = s.maintQ := by
  unfold eraseResume
  try dsimp only
  repeat' apply And.intro
  all_goals (repeat' split) <;> simp

/-- What `programDone` leaves. -/
@[simp] theorem programDone_keeps (s : State) :
    (programDone s).pending = s.pending ∧ (programDone s).mode = s.mode ∧
    (programDone s).resetHeld = s.resetHeld ∧ (programDone s).pos = s.pos ∧ (programDone s).link = s.link ∧
    (programDone s).ec = s.ec ∧ (programDone s).pool = s.pool ∧ (programDone s).lev = s.lev ∧
    (programDone s).params = s.params ∧ (programDone s).mix = s.mix ∧ (programDone s).slot = s.slot ∧
    (programDone s).prog = s.prog ∧ (programDone s).queue = s.queue ∧ (programDone s).waitList = s.waitList ∧
    (programDone s).tmn = s.tmn ∧ (programDone s).hwy = s.hwy ∧ (programDone s).words = s.words ∧
    (programDone s).port = s.port := by
  unfold programDone
  try dsimp only
  repeat' apply And.intro
  all_goals (repeat' split) <;> simp

/-- What `programTimeout` leaves. -/
@[simp] theorem programTimeout_keeps (s : State) :
    (programTimeout s).pending = s.pending ∧ (programTimeout s).mode = s.mode ∧
    (programTimeout s).resetHeld = s.resetHeld ∧ (programTimeout s).pos = s.pos ∧
    (programTimeout s).link = s.link ∧ (programTimeout s).ec = s.ec ∧ (programTimeout s).pool = s.pool ∧
    (programTimeout s).lev = s.lev ∧ (programTimeout s).params = s.params ∧ (programTimeout s).mix = s.mix ∧
    (programTimeout s).slot = s.slot ∧ (programTimeout s).prog = s.prog ∧ (programTimeout s).queue = s.queue ∧
    (programTimeout s).waitList = s.waitList ∧ (programTimeout s).tmn = s.tmn ∧
    (programTimeout s).hwy = s.hwy ∧ (programTimeout s).words = s.words ∧ (programTimeout s).port = s.port := by
  unfold programTimeout
  try dsimp only
  repeat' apply And.intro
  all_goals (repeat' split) <;> simp

/-- What `storeReadServe` leaves. -/
@[simp] theorem storeReadServe_keeps (s : State) :
    (storeReadServe s).pending = s.pending ∧ (storeReadServe s).mode = s.mode ∧
    (storeReadServe s).resetHeld = s.resetHeld ∧ (storeReadServe s).pos = s.pos ∧
    (storeReadServe s).link = s.link ∧ (storeReadServe s).ec = s.ec ∧ (storeReadServe s).pool = s.pool ∧
    (storeReadServe s).lev = s.lev ∧ (storeReadServe s).params = s.params ∧ (storeReadServe s).mix = s.mix ∧
    (storeReadServe s).clip = s.clip ∧ (storeReadServe s).slot = s.slot ∧ (storeReadServe s).prog = s.prog ∧
    (storeReadServe s).queue = s.queue ∧ (storeReadServe s).waitList = s.waitList ∧
    (storeReadServe s).tmn = s.tmn ∧ (storeReadServe s).hwy = s.hwy ∧ (storeReadServe s).words = s.words ∧
    (storeReadServe s).port = s.port ∧ (storeReadServe s).callQ = s.callQ ∧
    (storeReadServe s).floorQ = s.floorQ ∧ (storeReadServe s).maintQ = s.maintQ := by
  unfold storeReadServe
  try dsimp only
  repeat' apply And.intro
  all_goals (repeat' split) <;> simp

/-- What `storeReadComplete` leaves. -/
@[simp] theorem storeReadComplete_keeps (bs : List Byte) (s : State) :
    (storeReadComplete bs s).pending = s.pending ∧ (storeReadComplete bs s).mode = s.mode ∧
    (storeReadComplete bs s).resetHeld = s.resetHeld ∧ (storeReadComplete bs s).pos = s.pos ∧
    (storeReadComplete bs s).link = s.link ∧ (storeReadComplete bs s).ec = s.ec ∧
    (storeReadComplete bs s).pool = s.pool ∧ (storeReadComplete bs s).lev = s.lev ∧
    (storeReadComplete bs s).params = s.params ∧ (storeReadComplete bs s).mix = s.mix ∧
    (storeReadComplete bs s).clip = s.clip ∧ (storeReadComplete bs s).slot = s.slot ∧
    (storeReadComplete bs s).prog = s.prog ∧ (storeReadComplete bs s).queue = s.queue ∧
    (storeReadComplete bs s).waitList = s.waitList ∧ (storeReadComplete bs s).tmn = s.tmn ∧
    (storeReadComplete bs s).hwy = s.hwy ∧ (storeReadComplete bs s).words = s.words ∧
    (storeReadComplete bs s).callQ = s.callQ ∧ (storeReadComplete bs s).floorQ = s.floorQ ∧
    (storeReadComplete bs s).maintQ = s.maintQ := by
  unfold storeReadComplete
  try dsimp only
  repeat' apply And.intro
  all_goals (repeat' split) <;> simp

/-- What `storeReadAbandon` leaves. -/
@[simp] theorem storeReadAbandon_keeps (s : State) :
    (storeReadAbandon s).pending = s.pending ∧ (storeReadAbandon s).mode = s.mode ∧
    (storeReadAbandon s).resetHeld = s.resetHeld ∧ (storeReadAbandon s).pos = s.pos ∧
    (storeReadAbandon s).link = s.link ∧ (storeReadAbandon s).ec = s.ec ∧ (storeReadAbandon s).pool = s.pool ∧
    (storeReadAbandon s).lev = s.lev ∧ (storeReadAbandon s).params = s.params ∧
    (storeReadAbandon s).mix = s.mix ∧ (storeReadAbandon s).clip = s.clip ∧
    (storeReadAbandon s).slot = s.slot ∧ (storeReadAbandon s).prog = s.prog ∧
    (storeReadAbandon s).queue = s.queue ∧ (storeReadAbandon s).waitList = s.waitList ∧
    (storeReadAbandon s).tmn = s.tmn ∧ (storeReadAbandon s).hwy = s.hwy ∧
    (storeReadAbandon s).words = s.words ∧ (storeReadAbandon s).callQ = s.callQ ∧
    (storeReadAbandon s).floorQ = s.floorQ ∧ (storeReadAbandon s).maintQ = s.maintQ := by
  unfold storeReadAbandon
  try dsimp only
  repeat' apply And.intro
  all_goals (repeat' split) <;> simp

/-- What `acceptOperation` leaves. -/
@[simp] theorem acceptOperation_keeps (k : OpKind) (a n : Nat) (d : List Byte) (s : State) :
    (acceptOperation k a n d s).pending = s.pending ∧ (acceptOperation k a n d s).mode = s.mode ∧
    (acceptOperation k a n d s).resetHeld = s.resetHeld ∧ (acceptOperation k a n d s).pos = s.pos ∧
    (acceptOperation k a n d s).link = s.link ∧ (acceptOperation k a n d s).ec = s.ec ∧
    (acceptOperation k a n d s).pool = s.pool ∧ (acceptOperation k a n d s).lev = s.lev ∧
    (acceptOperation k a n d s).params = s.params ∧ (acceptOperation k a n d s).mix = s.mix ∧
    (acceptOperation k a n d s).slot = s.slot ∧ (acceptOperation k a n d s).prog = s.prog ∧
    (acceptOperation k a n d s).queue = s.queue ∧ (acceptOperation k a n d s).waitList = s.waitList ∧
    (acceptOperation k a n d s).tmn = s.tmn ∧ (acceptOperation k a n d s).hwy = s.hwy ∧
    (acceptOperation k a n d s).words = s.words ∧ (acceptOperation k a n d s).port = s.port ∧
    (acceptOperation k a n d s).callQ = s.callQ ∧ (acceptOperation k a n d s).floorQ = s.floorQ ∧
    (acceptOperation k a n d s).maintQ = s.maintQ := by
  unfold acceptOperation
  try dsimp only
  repeat' apply And.intro
  all_goals simp

/-- What `bindProgramme` leaves. -/
@[simp] theorem bindProgramme_keeps (k c : Nat) (s : State) :
    (bindProgramme k c s).pending = s.pending ∧ (bindProgramme k c s).mode = s.mode ∧
    (bindProgramme k c s).resetHeld = s.resetHeld ∧ (bindProgramme k c s).pos = s.pos ∧
    (bindProgramme k c s).link = s.link ∧ (bindProgramme k c s).ec = s.ec ∧
    (bindProgramme k c s).pool = s.pool ∧ (bindProgramme k c s).lev = s.lev ∧
    (bindProgramme k c s).params = s.params ∧ (bindProgramme k c s).mix = s.mix ∧
    (bindProgramme k c s).clip = s.clip ∧ (bindProgramme k c s).slot = s.slot ∧
    (bindProgramme k c s).queue = s.queue ∧ (bindProgramme k c s).waitList = s.waitList ∧
    (bindProgramme k c s).store = s.store ∧ (bindProgramme k c s).tmn = s.tmn ∧
    (bindProgramme k c s).hwy = s.hwy ∧ (bindProgramme k c s).words = s.words ∧
    (bindProgramme k c s).port = s.port ∧ (bindProgramme k c s).callQ = s.callQ ∧
    (bindProgramme k c s).floorQ = s.floorQ ∧ (bindProgramme k c s).maintQ = s.maintQ := by
  unfold bindProgramme
  try dsimp only
  repeat' apply And.intro
  all_goals (repeat' split) <;> simp

/-- What `loadEnds` leaves. -/
@[simp] theorem loadEnds_keeps (r : Cause) (n : Nat) (s : State) :
    (loadEnds r n s).pending = s.pending ∧ (loadEnds r n s).resetHeld = s.resetHeld ∧
    (loadEnds r n s).pos = s.pos ∧ (loadEnds r n s).link = s.link ∧ (loadEnds r n s).ec = s.ec ∧
    (loadEnds r n s).pool = s.pool ∧ (loadEnds r n s).lev = s.lev ∧ (loadEnds r n s).params = s.params ∧
    (loadEnds r n s).mix = s.mix ∧ (loadEnds r n s).clip = s.clip ∧ (loadEnds r n s).slot = s.slot ∧
    (loadEnds r n s).prog = s.prog ∧ (loadEnds r n s).queue = s.queue ∧
    (loadEnds r n s).waitList = s.waitList ∧ (loadEnds r n s).tmn = s.tmn ∧ (loadEnds r n s).hwy = s.hwy ∧
    (loadEnds r n s).words = s.words ∧ (loadEnds r n s).port = s.port := by
  unfold loadEnds
  try dsimp only
  repeat' apply And.intro
  all_goals simp

/-- What `tick` leaves. -/
@[simp] theorem tick_keeps (s : State) :
    (tick s).pending = s.pending ∧ (tick s).mode = s.mode ∧ (tick s).resetHeld = s.resetHeld ∧
    (tick s).pos = s.pos ∧ (tick s).link = s.link ∧ (tick s).ec = s.ec ∧ (tick s).pool = s.pool ∧
    (tick s).lev = s.lev ∧ (tick s).params = s.params ∧ (tick s).mix = s.mix ∧ (tick s).clip = s.clip ∧
    (tick s).slot = s.slot ∧ (tick s).prog = s.prog ∧ (tick s).queue = s.queue ∧
    (tick s).waitList = s.waitList ∧ (tick s).hwy = s.hwy ∧ (tick s).words = s.words ∧
    (tick s).callQ = s.callQ ∧ (tick s).floorQ = s.floorQ ∧ (tick s).maintQ = s.maintQ := by
  unfold tick
  try dsimp only
  repeat' apply And.intro
  all_goals simp

end Sys2Proof.Machine
end

