-- ==== Sys2Proof/Laws/Ops.lean ====
section
/-! SUPPORT. For each shared operation of the model one lemma that says what it can do: the cases of its outcome, with
the condition of each. Proofs cite these and do not unfold the operations. -/

namespace Sys2Proof.Machine

/-! ### Arithmetic -/

/-- A saturated value lies within 16 bits. -/
theorem sat16_range (v : Int) : -32768 ≤ sat16 v ∧ sat16 v ≤ 32767 := by
  unfold sat16; split <;> [omega; split <;> omega]

/-- A value within 16 bits is its own saturation. -/
theorem sat16_id (v : Int) (h : -32768 ≤ v) (h' : v ≤ 32767) : sat16 v = v := by
  unfold sat16; split <;> [omega; split <;> omega]

/-- A saturated value lies within 32 bits. -/
theorem sat32_range (v : Int) : -2147483648 ≤ sat32 v ∧ sat32 v ≤ 2147483647 := by
  unfold sat32; split <;> [omega; split <;> omega]

/-- A clamped value is at most its limit, and is the value itself where that is within it. -/
theorem clampTo_le (m v : Nat) : clampTo m v ≤ m := by unfold clampTo; split <;> omega
theorem clampTo_id (m v : Nat) (h : v ≤ m) : clampTo m v = v := by unfold clampTo; split <;> omega

/-- A one-byte field is below 256. -/
theorem field1_lt (bs : List Byte) (i : Nat) : field1 bs i < 256 := (bs.getD i 0).isLt

/-- The byte of a value below 256 carries that value. -/
theorem toByte_toNat (v : Nat) (h : v < 256) : (toByte v).toNat = v := by
  simp [toByte, Nat.mod_eq_of_lt h]

/-- The first field of a body whose first byte is given, and the fields after it. -/
@[simp] theorem field1_zero (b : Byte) (bs : List Byte) : field1 (b :: bs) 0 = b.toNat := rfl
@[simp] theorem field1_succ (b : Byte) (bs : List Byte) (i : Nat) : field1 (b :: bs) (i + 1) = field1 bs i := rfl

/-! ### Notices -/

/-- A post to a queue with room joins its tail and asserts its line; at a full queue it sets the overflow flag alone
(R193, R195). -/
theorem NoticeQueue.push_cases (n : Notice) (held : Bool) (q : NoticeQueue) :
    (q.records.length < 32 ∧ q.push n held = { q with records := q.records ++ [n], attention := !held }) ∨
      (32 ≤ q.records.length ∧ q.push n held = { q with overflow := true }) := by
  by_cases h : q.records.length < 32
  · exact .inl ⟨h, by simp [NoticeQueue.push, Config.queueRoom, h]⟩
  · exact .inr ⟨by omega, by simp [NoticeQueue.push, Config.queueRoom, h]⟩

/-! ### Searches -/

/-- A general slot that a search finds is one of S4 to S23. -/
theorem mem_generalSlots (i : Nat) : i ∈ generalSlots ↔ 4 ≤ i ∧ i < 24 := by
  simp only [generalSlots, List.mem_map, List.mem_range]
  constructor
  · rintro ⟨a, ha, rfl⟩; omega
  · intro h; exact ⟨i - 4, by omega, by omega⟩

/-- The free slot that a stream is given is a general slot at IDLE, and every lower general slot is in use (R126, R129). -/
theorem freeSlot_some (s : State) (i : Nat) (h : s.freeSlot = some i) :
    4 ≤ i ∧ i < 24 ∧ (s.slotAt i).state = .idle ∧ ∀ j, 4 ≤ j → j < i → (s.slotAt j).state ≠ .idle := by
  unfold State.freeSlot at h
  rw [List.find?_eq_some_iff_append] at h
  obtain ⟨h1, as, bs, h2, h3⟩ := h
  have hm : i ∈ generalSlots := by rw [h2]; simp
  obtain ⟨ha, hb⟩ := (mem_generalSlots i).1 hm
  refine ⟨ha, hb, by simpa using h1, ?_⟩
  intro j hj hji
  have hjm : j ∈ generalSlots := (mem_generalSlots j).2 ⟨hj, by omega⟩
  have hsorted : generalSlots.Pairwise (· < ·) := by decide
  rw [h2] at hjm hsorted
  rw [List.mem_append] at hjm
  rcases hjm with hjm | hjm
  · simpa using h3 j hjm
  · rw [List.pairwise_append] at hsorted
    rcases List.mem_cons.1 hjm with rfl | hjm
    · omega
    · have := (List.pairwise_cons.1 hsorted.2.1).1 j hjm
      omega

/-- No general slot is free. -/
theorem freeSlot_none (s : State) (h : s.freeSlot = none) :
    ∀ i, 4 ≤ i → i < 24 → (s.slotAt i).state ≠ .idle := by
  unfold State.freeSlot at h
  rw [List.find?_eq_none] at h
  intro i hi hi'
  simpa using h i ((mem_generalSlots i).2 ⟨hi, hi'⟩)

/-- A position's stream of a kind stands in a general slot that is not IDLE (R41). -/
theorem streamOf_some (s : State) (k : StreamKind) (p i : Nat) (h : s.streamOf k p = some i) :
    4 ≤ i ∧ i < 24 ∧ (s.slotAt i).state ≠ .idle ∧ (s.slotAt i).kind = some k ∧ (s.slotAt i).target = some p := by
  unfold State.streamOf at h
  have hm := List.mem_of_find?_eq_some h
  obtain ⟨ha, hb⟩ := (mem_generalSlots i).1 hm
  have hp := List.find?_some h
  refine ⟨ha, hb, ?_⟩
  simpa using hp

/-- A position without a stream of a kind has none in any general slot. -/
theorem streamOf_none (s : State) (k : StreamKind) (p : Nat) (h : s.streamOf k p = none) (i : Nat) (hi : 4 ≤ i)
    (hi' : i < 24) :
    ¬ ((s.slotAt i).state ≠ .idle ∧ (s.slotAt i).kind = some k ∧ (s.slotAt i).target = some p) := by
  unfold State.streamOf at h
  rw [List.find?_eq_none] at h
  simpa using h i ((mem_generalSlots i).2 ⟨hi, hi'⟩)

/-- The segment that the pool grants is free, and every lower segment is owned (R83). -/
theorem freeSeg_some (s : State) (g : Nat) (h : s.freeSeg = some g) :
    g < 64 ∧ (s.segAt g).owner = none ∧ ∀ j, j < g → (s.segAt j).owner ≠ none := by
  unfold State.freeSeg at h
  rw [List.find?_range_eq_some] at h
  obtain ⟨h1, h2, h3⟩ := h
  refine ⟨by simpa using h2, by simpa using h1, ?_⟩
  intro j hj
  have := h3 j hj
  intro hn
  simp [hn] at this

/-- No segment is free. -/
theorem freeSeg_none (s : State) (h : s.freeSeg = none) : ∀ g, g < 64 → (s.segAt g).owner ≠ none := by
  unfold State.freeSeg at h
  rw [List.find?_eq_none] at h
  intro g hg
  simpa using h g (by simpa using hg)

/-! ### Streams -/

/-- A stream starts on a clip that the catalogue describes, and on no other (R118). -/
theorem startStream_cases (i : Nat) (k : StreamKind) (t c g : Nat) (r : Option Nat) (h : Option Bool) (s : State) :
    ((s.clipAt c).body = none ∧ startStream i k t c g r h s = s) ∨
      (∃ b, (s.clipAt c).body = some b ∧
        startStream i k t c g r h s = (useUp c s).modSlot i (fun x => Slot.started k t c b g r h (x.carried k))) := by
  unfold startStream
  cases hb : (s.clipAt c).body with
  | none => exact .inl ⟨rfl, rfl⟩
  | some b => exact .inr ⟨b, rfl, rfl⟩

/-- The use count falls: a RETIRING entry at its last use becomes EMPTY with CLIP_FREED to MAINT, any other counts down
(R116). -/
theorem useDown_cases (c : Nat) (s : State) :
    ((s.clipAt c).state = .retiring ∧ (s.clipAt c).use ≤ 1 ∧
        useDown c s = (s.modClip c (fun _ => Clip.empty)).post .maint .clipFreed none (some c) none none) ∨
      (¬ ((s.clipAt c).state = .retiring ∧ (s.clipAt c).use ≤ 1) ∧
        useDown c s = s.modClip c (fun e => { e with use := e.use - 1 })) := by
  unfold useDown
  by_cases h : (s.clipAt c).state = .retiring ∧ (s.clipAt c).use ≤ 1
  · exact .inl ⟨h.1, h.2, by simp [h]⟩
  · exact .inr ⟨h, by simp [h]⟩

/-- A stop acts on a sounding slot, and turns a rising STOPPING slot; any other slot stays (R125). -/
theorem Slot.stop_cases (c : Cause) (x : Slot) :
    (x.state.sounding = true ∧ x.stop c = { x with state := .stopping, dir := some .falling, cause := some c }) ∨
      (x.state = .stopping ∧ x.dir = some .rising ∧
        x.stop c = { x with dir := some .falling, cause := some .noListeners }) ∨
      (x.state.sounding = false ∧ x.stop c = x) := by
  cases hs : x.state <;> simp [Slot.stop, StreamState.sounding, hs]
  by_cases h : x.dir = some .rising <;> simp [h]

/-- The given list of a position's items: a usable item starts in the slot and the items before it are gone, or all are
gone. Either way the queue becomes a tail of the list (R37, R38). -/
theorem startHead_queue (p i : Nat) (l : List WhisperItem) (s : State) (hp : p < 16) :
    ∃ q, q.Sublist l ∧ ((startHead p i l s).2).queueAt p = q ∧ ((startHead p i l s).1 = false → q = []) ∧
      ∀ r, r ≠ p → ((startHead p i l s).2).queueAt r = s.queueAt r := by
  induction l generalizing s with
  | nil => exact ⟨[], .refl _, by simp [startHead, hp], fun _ => rfl, fun r hr => by simp [startHead, Ne.symm hr]⟩
  | cons it rest ih =>
    by_cases h : s.whisperUsable it.clip
    · refine ⟨rest, by simp, ?_, by simp [startHead, h], fun r hr => ?_⟩
      · simp [startHead, h, State.queueAt, tget_tset, hp]
      · simp [startHead, h, State.queueAt, tget_tset, Ne.symm hr]
    · obtain ⟨q, h1, h2, h3, h4⟩ := ih (s.post .floor .whisperEnded (some p) (some it.clip) (some .unavailable) none)
      refine ⟨q, h1.cons _, by simpa [startHead, h] using h2, by simpa [startHead, h] using h3, fun r hr => ?_⟩
      have := h4 r hr
      simpa [startHead, h] using this

/-- The slot's outcome of one frame by its state (R122). -/
theorem slotFrame_idle (i : Nat) (s : State) (h : (s.slotAt i).state = .idle) :
    slotFrame i s = s.modSlot i (fun x => { x with out := 0 }) := by simp [slotFrame, h]

/-! ### Frames on the Control Link -/

/-- A frame that passes the checks of R188 runs its command on the state in which it is accepted, and owes its answer. -/
theorem takeFrame_taken (st : Station) (code : Byte) (roles : List Role) (fits whileStarting : Bool)
    (core : Role → State → State × Answer) (s : State) (r : Role) (hr : stationRole st = some r) (hm : r ∈ roles)
    (hf : fits = true) (hs : s.mode = .ready ∨ whileStarting = true) :
    takeFrame st code roles fits whileStarting core s = (core r s.accepted).1.owe st code (core r s.accepted).2 := by
  subst hf
  rcases hs with hs | hs <;> simp [takeFrame, hr, hm, hs]

/-- A frame that a check of R188 refuses owes its refusal and does nothing else. -/
theorem takeFrame_cases (st : Station) (code : Byte) (roles : List Role) (fits whileStarting : Bool)
    (core : Role → State → State × Answer) (s : State) :
    (∃ r, stationRole st = some r ∧ r ∈ roles ∧ fits = true ∧ (s.mode = .ready ∨ whileStarting = true) ∧
        takeFrame st code roles fits whileStarting core s =
          (core r s.accepted).1.owe st code (core r s.accepted).2) ∨
      (∃ status, takeFrame st code roles fits whileStarting core s = s.accepted.owe st code (.bare status)) := by
  unfold takeFrame
  cases hr : stationRole st with
  | none => exact .inr ⟨_, rfl⟩
  | some r =>
    by_cases hm : r ∈ roles
    · cases fits with
      | false => exact .inr ⟨.length, by simp [hm]⟩
      | true =>
        by_cases hs : s.mode = .starting ∧ whileStarting = false
        · exact .inr ⟨.busy, by simp [hm, hs.1, hs.2]⟩
        · have hs' : s.mode = .ready ∨ whileStarting = true := by
            cases hmode : s.mode with
            | ready => exact .inl rfl
            | starting => exact .inr (by simpa [hmode] using hs)
          refine .inl ⟨r, rfl, hm, rfl, hs', ?_⟩
          rcases hs' with h' | h' <;> simp [hm, h']
    · exact .inr ⟨.role, by simp [hm]⟩

/-- What the acceptance, the command itself and the owed reply each keep, every accepted frame keeps. -/
theorem takeFrame_kept (P : State → Prop) (st : Station) (code : Byte) (roles : List Role) (fits whileStarting : Bool)
    (core : Role → State → State × Answer) (s : State) (hacc : P s → P s.accepted)
    (howe : ∀ t a, P t → P (t.owe st code a)) (hcore : ∀ r t, P t → P (core r t).1) (h : P s) :
    P (takeFrame st code roles fits whileStarting core s) := by
  rcases takeFrame_cases st code roles fits whileStarting core s with ⟨r, _, _, _, _, heq⟩ | ⟨status, heq⟩
  · rw [heq]; exact howe _ _ (hcore _ _ (hacc h))
  · rw [heq]; exact howe _ _ (hacc h)

/-! ### The words of a frame, the end of a block, the grace timer -/

/-- Filling takes the next words of the frame, one for each port. -/
theorem fillWords_words (n : Nat) (s : State) : (fillWords n s).words = s.words + n := by
  induction n generalizing s with
  | zero => rfl
  | succ n ih => rw [fillWords, ih]; simp only [takeWord, State.setWords_words]; omega

/-- Filling a count and one more fills the count first, and then takes the word of the port that is next (R154). -/
theorem fillWords_succ_last (n : Nat) (s : State) :
    fillWords (n + 1) s = takeWord (s.words + n) 0 (fillWords n s) := by
  induction n generalizing s with
  | zero => rfl
  | succ n ih =>
    rw [fillWords, ih]
    have h : (takeWord s.words 0 s).words + n = s.words + (n + 1) := by
      simp only [takeWord, State.setWords_words]; omega
    rw [h]; rfl

/-- After the missing words every port has yielded its word of the frame (R154). -/
theorem missingWords_words (s : State) : (missingWords s).words = max 16 s.words := by
  rw [missingWords, fillWords_words]; omega

/-- With the words of all sixteen ports taken none is missing. -/
theorem missingWords_none (s : State) (h : 16 ≤ s.words) : missingWords s = s := by
  have h' : 16 - s.words = 0 := by omega
  simp [missingWords, h', fillWords]

/-- A word comes second in its frame and is none, or it follows the words of the ports that it passes over (R154). -/
theorem headsetWordArrival_cases (p : Nat) (w : BitVec 19) (s : State) :
    (p < s.words ∧ headsetWordArrival p w s = s) ∨
      (s.words ≤ p ∧ headsetWordArrival p w s = takeWord p w (fillWords (p - s.words) s)) := by
  by_cases h : p < s.words
  · exact .inl ⟨h, by simp [headsetWordArrival, h]⟩
  · exact .inr ⟨by omega, by simp [headsetWordArrival, h]⟩

/-- A block that is complete ends after the missing words, with the expiry that falls at it; any other does not end
(R178, R182). -/
theorem blockBoundary_cases (s : State) :
    (40 ≤ s.tmn.frames ∧ blockBoundary s = graceExpiry (blockWork (missingWords s))) ∨
      (s.tmn.frames < 40 ∧ blockBoundary s = s) := by
  by_cases h : 40 ≤ s.tmn.frames
  · exact .inl ⟨h, by simp [blockBoundary, State.blockComplete, Config.blockFrames, h]⟩
  · exact .inr ⟨by omega, by simp [blockBoundary, State.blockComplete, Config.blockFrames, h]⟩

/-- The expiry is taken by a timer that stands at its limit, and by no other (R178). -/
theorem graceExpiry_cases (s : State) :
    (s.tmn.graceOver = true ∧ graceExpiry s = forcedRelease (s.modTmn (fun t => { t with running := false }))) ∨
      (s.tmn.graceOver = false ∧ graceExpiry s = s) := by
  cases h : s.tmn.graceOver
  · exact .inr ⟨rfl, by simp [graceExpiry, h]⟩
  · exact .inl ⟨rfl, by simp [graceExpiry, h]⟩

/-! ### Characters and replies on the Control Link -/

/-- What a character does: none is under way from its end on; while the part sends nothing more; a good one is taken; a bad one abandons a frame in progress, and in
SLEEP is passed over (R184 to R186, R190). -/
theorem characterArrives_cases (ch : BitVec 12) (low : Nat) (s : State) :
    (s.port.sending.isSome = true ∧ characterArrives ch low s = s.modPort (fun q => { q with coming := none })) ∨
      (s.port.sending = none ∧ charGood ch = true ∧
        characterArrives ch low s = takeCharacter ch (s.modPort (Port.heard ch low))) ∨
      (s.port.sending = none ∧ charGood ch = false ∧ s.port.state ≠ .sleep ∧
        characterArrives ch low s = (s.modPort (Port.heard ch low)).modPort Port.toSleep) ∨
      (s.port.sending = none ∧ charGood ch = false ∧ s.port.state = .sleep ∧
        characterArrives ch low s = s.modPort (Port.heard ch low)) := by
  cases hs : s.port.sending with
  | some r => exact .inl ⟨rfl, by simp [characterArrives, hs]⟩
  | none =>
    cases hg : charGood ch with
    | true => exact .inr (.inl ⟨rfl, rfl, by simp [characterArrives, hs, hg]⟩)
    | false =>
      by_cases hz : s.port.state = .sleep
      · exact .inr (.inr (.inr ⟨rfl, rfl, hz, by
          simp [characterArrives, hs, hg, Port.inFrame, Port.heard, hz]⟩))
      · exact .inr (.inr (.inl ⟨rfl, rfl, hz, by
          simp [characterArrives, hs, hg, Port.inFrame, Port.heard, hz]⟩))

/-- After 24 bit times of low wire the character is followed by the break, and after fewer it stands alone (R184, R187). -/
theorem characterEnds_cases (ch : BitVec 12) (low : Nat) (s : State) :
    (24 ≤ lowAfter ch + low ∧ characterEnds ch low s = linkBreak (characterArrives ch 0 s)) ∨
      (lowAfter ch + low < 24 ∧ characterEnds ch low s = characterArrives ch low s) := by
  by_cases h : 24 ≤ lowAfter ch + low
  · exact .inl ⟨h, by simp [characterEnds, Config.breakBits, h]⟩
  · exact .inr ⟨by omega, by simp [characterEnds, Config.breakBits, h]⟩

/-- A character begins on a wire that no other character and no reply of the part holds, and is under way from then on; else
nothing happens (R184, R190). -/
theorem characterBegins_cases (ch : BitVec 12) (low : Nat) (s : State) :
    (s.port.sending = none ∧ s.port.coming = none ∧
        characterBegins ch low s =
          s.modPort (fun q => { q with quiet := 0, coming := some { ch := ch, low := low, clock := 0 } })) ∨
      ((s.port.sending ≠ none ∨ s.port.coming ≠ none) ∧ characterBegins ch low s = s) := by
  cases hs : s.port.sending <;> cases hc : s.port.coming <;> simp [characterBegins, hs, hc]

/-- The event that is due at the port is the end of the character under way, when its time is over, or a limit, or the
reply that may begin. -/
theorem Port.due_cases (pinHeld : Bool) (q : Port) :
    (∃ c, q.coming = some c ∧ c.over = true ∧ q.due pinHeld = some (.goodCharacter c.ch (.ended c.low))) ∨
      ((∀ c, q.coming = some c → c.over = false) ∧ q.due pinHeld = q.dueLimit pinHeld) := by
  cases hc : q.coming with
  | none => exact .inr ⟨by simp, by simp [Port.due, Port.dueCharacter, hc]⟩
  | some c =>
    cases ho : c.over with
    | true => exact .inl ⟨c, rfl, ho, by simp [Port.due, Port.dueCharacter, hc, ho]⟩
    | false => exact .inr ⟨by simpa using ho, by simp [Port.due, Port.dueCharacter, hc, ho]⟩

/-- A reply begins only where it may, and the pin is not held; then the reply owed is the one that is sent (R189, R196). -/
theorem replyStart_cases (s : State) :
    (∃ o, s.port.owed = some o ∧ s.port.mayReply = true ∧ s.resetHeld = false ∧
        replyStart s = s.modPort (fun q => { q with owed := none, sending := some (replyFrame q.address o) })) ∨
      ((s.port.mayReply = false ∨ s.resetHeld = true) ∧ replyStart s = s) := by
  unfold replyStart
  cases ho : s.port.owed with
  | none => exact .inr ⟨.inl (by simp [Port.mayReply, ho]), rfl⟩
  | some o =>
    cases hm : s.port.mayReply <;> cases hr : s.resetHeld <;> simp

/-! ### Steps -/

/-- A step runs the command at the front, or, with an empty queue, the event that is due, or else one tick. -/
theorem step_cases (s t : State) (h : step s = .next t) :
    (∃ c rest, s.pending = c :: rest ∧ exec c { s with pending := rest } = .next t) ∨
      (∃ c, s.pending = [] ∧ due s = some c ∧ exec c s = .next t) ∨
      (s.pending = [] ∧ due s = none ∧ t = tick s) := by
  unfold step at h
  cases hp : s.pending with
  | cons c rest => rw [hp] at h; exact .inl ⟨c, rest, rfl, h⟩
  | nil =>
    rw [hp] at h
    cases hd : due s with
    | some c => rw [hd] at h; exact .inr (.inl ⟨c, rfl, rfl, h⟩)
    | none => rw [hd] at h; exact .inr (.inr ⟨rfl, rfl, by simpa using h.symm⟩)

/-- What every command and a tick keep, and what does not look at the queue, every step keeps. -/
theorem step_kept (P : State → Prop) (hq : ∀ s rest, P s → P { s with pending := rest })
    (hexec : ∀ c s t, P s → exec c s = .next t → P t) (htick : ∀ s, P s → P (tick s)) (s t : State) (hs : P s)
    (h : step s = .next t) : P t := by
  rcases step_cases s t h with ⟨c, rest, _, hc⟩ | ⟨c, _, _, hc⟩ | ⟨_, _, rfl⟩
  · exact hexec c _ t (hq s rest hs) hc
  · exact hexec c s t hs hc
  · exact htick s hs

/-- Two lists whose elements correspond find corresponding elements. -/
theorem find?_corresponds {α β : Type} (R : α → β → Prop) (f : α → Bool) (g : β → Bool)
    (hfg : ∀ a b, R a b → f a = g b) {l : List α} {m : List β} (h : List.Forall₂ R l m) :
    (∃ a b, l.find? f = some a ∧ m.find? g = some b ∧ R a b) ∨ (l.find? f = none ∧ m.find? g = none) := by
  induction h with
  | nil => exact .inr ⟨rfl, rfl⟩
  | @cons a b l m hab _ ih =>
    cases hg : g b with
    | true => exact .inl ⟨a, b, by simp [hfg a b hab, hg], by simp [hg], hab⟩
    | false =>
      rcases ih with ⟨a', b', h1, h2, h3⟩ | ⟨h1, h2⟩
      · exact .inl ⟨a', b', by simp [hfg a b hab, hg, h1], by simp [hg, h2], h3⟩
      · exact .inr ⟨by simp [hfg a b hab, hg, h1], by simp [hg, h2]⟩

/-- The rows of Table 12-1 and the receiver's commands correspond, row by row. -/
theorem codeTable_handlers : List.Forall₂
    (fun (r : CodeRow) (h : Handler) => r.code = h.code ∧ ∀ st ps s, exec (r.command st ps) s = .next (h.take st ps s))
    codeTable handlers := by
  unfold codeTable handlers
  repeat' first
    | exact List.Forall₂.nil
    | refine List.Forall₂.cons ⟨rfl, fun _ _ _ => rfl⟩ ?_

/-- The frame that the receiver takes is the command of the opcode table that its body spells (R188). -/
theorem exec_frameCommand (st : Station) (body : List Byte) (s : State) :
    exec (frameCommand st body) s = .next (takeBody st body s) := by
  cases body with
  | nil => rfl
  | cons c ps =>
    unfold frameCommand takeBody handlerOf
    rcases find?_corresponds _ (fun r : CodeRow => r.code == c) (fun h : Handler => h.code == c)
        (fun a b h => by rw [h.1]) codeTable_handlers with ⟨r, h, h1, h2, h3⟩ | ⟨h1, h2⟩
    · simp only [h1, h2]; exact h3.2 st ps s
    · simp only [h1, h2]; rfl

end Sys2Proof.Machine
end

