-- ==== Sys2Proof/Laws/PerInstr.lean ====
section
/-! SUPPORT. The statements made for each command as syntax, one lemma for each constructor of Instr. -/

namespace Sys2Proof.Laws.DecodedFrame

/-- The body of a command frame spells that very command; the one exception is a frame named UNKNOWN_COMMAND whose code
does name a command (a station without a role sends it), whose body spells the named command. A row that is an event
has no body. -/
def Statement (i : Instr) : Prop :=
  ∀ st body, frameBody i = some (st, body) →
    frameCommand st body = i ∨ (i = .unknownCommand st body ∧ ∃ r ∈ codeTable, body.head? = some r.code)

theorem deviceReset (straps : BitVec 5) : Statement (.deviceReset straps) := by
  rintro st' body' h; cases h
theorem startupStoreReady : Statement .startupStoreReady := by
  rintro st' body' h; cases h
theorem startupNoStore : Statement .startupNoStore := by
  rintro st' body' h; cases h
theorem startupLoadEnd (dir : List Byte) : Statement (.startupLoadEnd dir) := by
  rintro st' body' h; cases h
theorem frameBoundary : Statement .frameBoundary := by
  rintro st' body' h; cases h
theorem blockBoundary : Statement .blockBoundary := by
  rintro st' body' h; cases h
theorem graceTimerExpiry : Statement .graceTimerExpiry := by
  rintro st' body' h; cases h
theorem lineSync (rx : Tab 32 Byte) : Statement (.lineSync rx) := by
  rintro st' body' h; cases h
theorem acquisitionTimeout : Statement .acquisitionTimeout := by
  rintro st' body' h; cases h
theorem clockFail : Statement .clockFail := by
  rintro st' body' h; cases h
theorem headsetWordArrival (p : Fin 16) (word : BitVec 19) : Statement (.headsetWordArrival p word) := by
  rintro st' body' h; cases h
theorem fetchGrant : Statement .fetchGrant := by
  rintro st' body' h; cases h
theorem fetchArrival (bytes : List Byte) : Statement (.fetchArrival bytes) := by
  rintro st' body' h; cases h
theorem fetchTimeout : Statement .fetchTimeout := by
  rintro st' body' h; cases h
theorem operationStepStart : Statement .operationStepStart := by
  rintro st' body' h; cases h
theorem eraseDone : Statement .eraseDone := by
  rintro st' body' h; cases h
theorem eraseTimeout : Statement .eraseTimeout := by
  rintro st' body' h; cases h
theorem suspendTimeout : Statement .suspendTimeout := by
  rintro st' body' h; cases h
theorem eraseResume : Statement .eraseResume := by
  rintro st' body' h; cases h
theorem programDone : Statement .programDone := by
  rintro st' body' h; cases h
theorem programTimeout : Statement .programTimeout := by
  rintro st' body' h; cases h
theorem storeReadServe : Statement .storeReadServe := by
  rintro st' body' h; cases h
theorem storeReadComplete (bytes : List Byte) : Statement (.storeReadComplete bytes) := by
  rintro st' body' h; cases h
theorem storeReadAbandon : Statement .storeReadAbandon := by
  rintro st' body' h; cases h
theorem receiverIdleTimeout : Statement .receiverIdleTimeout := by
  rintro st' body' h; cases h
theorem frameAbandoned (why : AbandonCause) : Statement (.frameAbandoned why) := by
  rintro st' body' h; cases h
theorem linkBreak : Statement .linkBreak := by
  rintro st' body' h; cases h
theorem unknownCommand (st : Station) (body : List Byte) : Statement (.unknownCommand st body) := by
  rintro st' body' h
  cases h
  cases body with
  | nil => exact .inl rfl
  | cons c ps =>
    cases hf : codeTable.find? (fun r => r.code == c) with
    | none => exact .inl (by simp [frameCommand, hf])
    | some r =>
      refine .inr ⟨rfl, r, List.mem_of_find?_eq_some hf, ?_⟩
      have := List.find?_some hf
      simp at this
      simp [this]

theorem replyStart : Statement .replyStart := by
  rintro st' body' h; cases h
theorem replyDrop : Statement .replyDrop := by
  rintro st' body' h; cases h
theorem replyCollision : Statement .replyCollision := by
  rintro st' body' h; cases h
theorem connect (st : Station) (params : List Byte) : Statement (.connect st params) := by
  rintro st' body' h; cases h; exact .inl rfl
theorem hold (st : Station) (params : List Byte) : Statement (.hold st params) := by
  rintro st' body' h; cases h; exact .inl rfl
theorem resume (st : Station) (params : List Byte) : Statement (.resume st params) := by
  rintro st' body' h; cases h; exact .inl rfl
theorem release (st : Station) (params : List Byte) : Statement (.release st params) := by
  rintro st' body' h; cases h; exact .inl rfl
theorem mute (st : Station) (params : List Byte) : Statement (.mute st params) := by
  rintro st' body' h; cases h; exact .inl rfl
theorem setCallGains (st : Station) (params : List Byte) : Statement (.setCallGains st params) := by
  rintro st' body' h; cases h; exact .inl rfl
theorem setSidetone (st : Station) (params : List Byte) : Statement (.setSidetone st params) := by
  rintro st' body' h; cases h; exact .inl rfl
theorem monitor (st : Station) (params : List Byte) : Statement (.monitor st params) := by
  rintro st' body' h; cases h; exact .inl rfl
theorem unmonitor (st : Station) (params : List Byte) : Statement (.unmonitor st params) := by
  rintro st' body' h; cases h; exact .inl rfl
theorem whisperPrompt (st : Station) (params : List Byte) : Statement (.whisperPrompt st params) := by
  rintro st' body' h; cases h; exact .inl rfl
theorem clearWhispers (st : Station) (params : List Byte) : Statement (.clearWhispers st params) := by
  rintro st' body' h; cases h; exact .inl rfl
theorem setEc (st : Station) (params : List Byte) : Statement (.setEc st params) := by
  rintro st' body' h; cases h; exact .inl rfl
theorem resetEc (st : Station) (params : List Byte) : Statement (.resetEc st params) := by
  rintro st' body' h; cases h; exact .inl rfl
theorem setLevels (st : Station) (params : List Byte) : Statement (.setLevels st params) := by
  rintro st' body' h; cases h; exact .inl rfl
theorem setNeighbours (st : Station) (params : List Byte) : Statement (.setNeighbours st params) := by
  rintro st' body' h; cases h; exact .inl rfl
theorem clipLoad (st : Station) (params : List Byte) : Statement (.clipLoad st params) := by
  rintro st' body' h; cases h; exact .inl rfl
theorem clipDelete (st : Station) (params : List Byte) : Statement (.clipDelete st params) := by
  rintro st' body' h; cases h; exact .inl rfl
theorem setProgramme (st : Station) (params : List Byte) : Statement (.setProgramme st params) := by
  rintro st' body' h; cases h; exact .inl rfl
theorem callerPrompt (st : Station) (params : List Byte) : Statement (.callerPrompt st params) := by
  rintro st' body' h; cases h; exact .inl rfl
theorem stopPrompt (st : Station) (params : List Byte) : Statement (.stopPrompt st params) := by
  rintro st' body' h; cases h; exact .inl rfl
theorem storeErase (st : Station) (params : List Byte) : Statement (.storeErase st params) := by
  rintro st' body' h; cases h; exact .inl rfl
theorem storeWrite (st : Station) (params : List Byte) : Statement (.storeWrite st params) := by
  rintro st' body' h; cases h; exact .inl rfl
theorem storeRead (st : Station) (params : List Byte) : Statement (.storeRead st params) := by
  rintro st' body' h; cases h; exact .inl rfl
theorem saveDirectory (st : Station) (params : List Byte) : Statement (.saveDirectory st params) := by
  rintro st' body' h; cases h; exact .inl rfl
theorem setGrace (st : Station) (params : List Byte) : Statement (.setGrace st params) := by
  rintro st' body' h; cases h; exact .inl rfl
theorem forceClockFail (st : Station) (params : List Byte) : Statement (.forceClockFail st params) := by
  rintro st' body' h; cases h; exact .inl rfl
theorem ackClockFail (st : Station) (params : List Byte) : Statement (.ackClockFail st params) := by
  rintro st' body' h; cases h; exact .inl rfl
theorem readPosition (st : Station) (params : List Byte) : Statement (.readPosition st params) := by
  rintro st' body' h; cases h; exact .inl rfl
theorem readStream (st : Station) (params : List Byte) : Statement (.readStream st params) := by
  rintro st' body' h; cases h; exact .inl rfl
theorem readClip (st : Station) (params : List Byte) : Statement (.readClip st params) := by
  rintro st' body' h; cases h; exact .inl rfl
theorem readTiming (st : Station) (params : List Byte) : Statement (.readTiming st params) := by
  rintro st' body' h; cases h; exact .inl rfl
theorem readPool (st : Station) (params : List Byte) : Statement (.readPool st params) := by
  rintro st' body' h; cases h; exact .inl rfl
theorem fetchNotices (st : Station) (params : List Byte) : Statement (.fetchNotices st params) := by
  rintro st' body' h; cases h; exact .inl rfl
theorem goodCharacter (ch : BitVec 12) (w : CharacterTime) : Statement (.goodCharacter ch w) := by
  rintro st' body' h; cases h
theorem replyEnd : Statement .replyEnd := by
  rintro st' body' h; cases h
theorem resetPinHeld : Statement .resetPinHeld := by
  rintro st' body' h; cases h
theorem stepStoreReady : Statement .stepStoreReady := by
  rintro st' body' h; cases h

end Sys2Proof.Laws.DecodedFrame
end

