-- ==== Sys2Proof/WellFormed.lean ====
section
/-! DEFINITION. Which commands can come about at all: a frame's body has 1 to 40 bytes (R185), a fetch brings 1 to 64
bytes (R119), a STORE_READ 1 to 32 (Table 8-3), the directory is 1544 bytes (R150), and a character begins with a start
bit of 0 (Table 11-1). -/

namespace Sys2Proof

/-- The byte strings and the characters that a command carries are of the form the spec gives. -/
def Instr.wellFormed (i : Instr) : Bool :=
  match i with
  | .startupLoadEnd dir => dir.length == Config.imageBytes
  | .fetchArrival bytes => 1 ≤ bytes.length && bytes.length ≤ Config.fetchBlock
  | .storeReadComplete bytes => 1 ≤ bytes.length && bytes.length ≤ 32
  | .goodCharacter ch _ => !ch.getLsbD 0
  | .frameAbandoned (.badCharacter ch) => !ch.getLsbD 0
  | .frameAbandoned (.badLength n) => n.toNat == 0 || 40 < n.toNat
  | i =>
    match frameBody i with
    | some (_, body) => 1 ≤ body.length && body.length ≤ 40
    | none => true

end Sys2Proof
end

