-- ==== Sys2Proof/Tests/Slice0.lean ====
section
/-! SUPPORT. Our own tests. Part 1: the checks of WellFormed. Part 2: the spec's worked examples and tables, each with
its place in the spec; no expected value comes from the model. Part 3: for every statement that has hypotheses, one
theorem that names a state and operands that meet them, for each of its clauses (witness_<Name>). -/

namespace Sys2Proof.Tests

set_option Elab.async false

open Sys2Proof Sys2Proof.Machine

/-! ### States -/

/-- The part READY with an empty catalogue. -/
def ready : State := { State.reset with mode := .ready, store := { Store.reset with startup := none } }

/-- The state after a command. -/
def after (c : Instr) (s : State) : State :=
  match exec c s with
  | .next t => t
  | _ => State.reset

/-- The state after several commands. -/
def afterAll (cs : List Instr) (s : State) : State := cs.foldl (fun s c => after c s) s

/-- The status, the clamped mark and the data of the reply that is owed. -/
def reply (s : State) : Option (Status × Bool × List Byte) := s.port.owed.map (fun o => (o.status, o.clamped, o.data))

/-- P2 CONNECTED and monitored by P9 in WHISPER, P5 HELD on programme 1. -/
def talking : State :=
  (((ready.modPos 2 (fun x =>
      { x with call := .connected, binding := some { rx := 4, tx := 4 },
               relation := some { form := .monitoredBy, other := 9, mode := .whisper, gain := some 1000 } })).modPos 9
    (fun x => { x with relation := some { form := .monitoring, other := 2, mode := .whisper, gain := some 1000 } })).modPos
    5 (fun x => { x with call := .held, binding := some { rx := 7, tx := 9 }, hold := some 1 })).modProg 1
    (fun g => { g with listeners := 1 })

/-- An ACTIVE entry that nothing uses. -/
def active (cls : ClipClass) (start length loop : Nat) : Clip :=
  { state := .active, body := some (clipBody cls start length loop), use := 0, fenced := false }

/-- The same with clips: 30 and 31 MUSIC, 40 WHISPER, 20 CALLER; programme 1 on clip 30. -/
def media : State :=
  ((((talking.modClip 30 (fun _ => active .music 4096 24000 8000)).modClip 31 (fun _ => active .music 32768 3000 0)).modClip
    40 (fun _ => active .whisper 40960 1000 0)).modClip 20 (fun _ => active .caller 49152 100 0)).modProg 1
    (fun g => { g with clip := some 30 })

/-- The same with a caller stream of P5 in S4, PLAYING, and a whisper stream of P2 in S5, and S1 STOPPING. -/
def playing : State :=
  ((media.modSlot 4 (fun _ =>
      { Slot.started .caller 5 20 (clipBody .caller 49152 100 0) 4096 (some 1) (some true) 0 with
        state := .playing, begun := true, buffer := [5, 6, 7], left := 36, addr := 49216 })).modSlot 5 (fun _ =>
      { Slot.started .whisper 2 40 (clipBody .whisper 40960 1000 0) 6000 none none 0 with
        state := .playing, begun := true, left := 1000 })).modSlot 1 (fun _ =>
      { Slot.started .programme 1 30 (clipBody .music 4096 24000 8000) 8192 none none 0 with
        state := .stopping, begun := true, buffer := [100, 100], left := 64, ramp := 7, dir := some .rising })

/-- Every general slot taken. -/
def crowded : State :=
  generalSlots.foldl (fun s i => s.modSlot i (fun x =>
    if x.state = .idle then { x with state := .priming, kind := some .caller, target := some (i % 16), clip := some 20 }
    else x)) playing

/-- A store operation in flight, in the given phase and activity. -/
def storing (k : OpKind) (step : Nat) (ph : StepPhase) (act : LinkActivity) : State :=
  ready.modStore (fun u =>
    { u with activity := act, op := some { kind := k, start := 1228800, size := 4096, data := [], step := step,
                                           phase := ph, runTime := 0, clock := 0 } })

/-- A pending STORE_READ. -/
def reading (holding : Bool) (s : State) : State :=
  s.modStore (fun u => { u with read := some { addr := 0, count := 2, holding := holding, clock := 0 } })

/-- The link of P6 UP, with one segment, at the turn of its port in the frame. -/
def linked : State :=
  (((ready.modLink 6 (fun l => { l with state := .up })).modSegs 6 (fun _ => [0])).modSeg 0
    (fun x => { x with owner := some 6 })).setWords 6

/-- The state after the word `w` of P6 in each of `n` frames. -/
def frames (n : Nat) (w : BitVec 19) (s : State) : State :=
  (List.range n).foldl (fun s _ => after (.headsetWordArrival 6 w) (s.setWords 6)) s

/-- A good word of value `d`, with its button. -/
def word (d : BitVec 16) (button : Bool) : BitVec 19 :=
  let front : BitVec 18 := d ++ (1 : BitVec 1) ++ BitVec.ofBool button
  front ++ BitVec.ofBool (ones front % 2 == 1)

/-! ### Part 1. What WellFormed refuses -/

theorem test_wf_directory_length : (Instr.startupLoadEnd [0]).wellFormed = false := by decide +kernel
theorem test_wf_fetch_of_no_byte : (Instr.fetchArrival []).wellFormed = false := by decide +kernel
theorem test_wf_fetch_of_65_bytes : (Instr.fetchArrival (List.replicate 65 0)).wellFormed = false := by decide +kernel
theorem test_wf_read_of_no_byte : (Instr.storeReadComplete []).wellFormed = false := by decide +kernel
theorem test_wf_read_of_33_bytes : (Instr.storeReadComplete (List.replicate 33 0)).wellFormed = false := by decide +kernel
theorem test_wf_character_without_start_bit : (Instr.goodCharacter 1 (.ended 0)).wellFormed = false ∧
    (Instr.frameAbandoned (.badCharacter 1)).wellFormed = false := by decide +kernel
theorem test_wf_good_length_is_no_bad_length : (Instr.frameAbandoned (.badLength 40)).wellFormed = false := by
  decide +kernel
theorem test_wf_empty_body : (Instr.unknownCommand .st1 []).wellFormed = false := by decide +kernel
theorem test_wf_body_of_41_bytes : (Instr.storeWrite .st4 (List.replicate 40 0)).wellFormed = false := by decide +kernel
theorem test_wf_body_of_40_bytes : (Instr.storeWrite .st4 (List.replicate 39 0)).wellFormed = true := by decide +kernel

/-! ### Part 2. Worked examples and tables of the spec -/

/-- Table 10-1. -/
theorem test_sample_law : ([0, 3, 4, 100, -100, 1000, 5000, 32767, -32768] : List Int).map (fun v => lawDecode (lawEncode v)) =
    [0, 0, 8, 104, -104, 988, 5116, 32124, -32124] := by decide +kernel
/-- R138: an erased byte decodes to -32124. -/
theorem test_erased_byte : lawDecode 255 = -32124 := by decide +kernel
/-- R94. -/
theorem test_levels : [lvl 1, lvl 2, lvl 42949672960, lvl 673672407040] = [0, 8, 282, 313] := by decide +kernel
/-- Section 0.5.2: halves go away from zero. -/
theorem test_rounding : [roundDiv 5 2, roundDiv (-5) 2, roundDiv 4 3, roundDiv (-4) 3] = [3, -3, 1, -1] := by
  decide +kernel
/-- Table 12-1: the body 10 03 05 07 (hex) is CONNECT of P3 with rx 5 and tx 7; 17 (hex) names no command. -/
theorem test_frame_codes : frameCommand .st1 [0x10, 3, 5, 7] = .connect .st1 [3, 5, 7] ∧
    frameCommand .st4 [0x53] = .saveDirectory .st4 [] ∧ frameCommand .st2 [0x17, 1] = .unknownCommand .st2 [0x17, 1] := by
  decide +kernel
/-- The table's rows have no bits. -/
theorem test_no_row_has_bits : decodeTableWord 8 0x10 = none := rfl

theorem test_device_reset : ((after (.deviceReset 3) talking).posAt 2).call = .free ∧
    (after (.deviceReset 3) talking).port.address = 3 := by decide +kernel
theorem test_reset_pin : (after .resetPinHeld { ready with callQ := { records := [], overflow := false, attention := true } }).callQ.attention
    = false := by decide +kernel
/-- R151: abandon at the first ready, and the read of the header at the next. -/
theorem test_startup_ready : (after .startupStoreReady State.reset).store.request = some .abandon ∧
    (afterAll [.startupStoreReady, .startupStoreReady] State.reset).store.request = some (.read 0 8) := by decide +kernel
theorem test_startup_no_store : (after .startupNoStore State.reset).mode = .ready ∧
    (after .startupNoStore State.reset).maintQ.records.map (fun n => (n.kind, n.cause, n.value)) =
      [(.started, some .noStore, some 0)] := by decide +kernel

/-- An entry of a directory (Table 12-7). -/
def entry (c cls binding start length loop : Nat) : List Byte :=
  put1 c ++ put1 cls ++ put1 binding ++ put3 start ++ put3 length ++ put3 loop
/-- The six entries of Table 8-6. -/
def table86 : List Byte :=
  entry 30 0 1 4096 24000 8000 ++ entry 40 1 255 40960 100 0 ++ entry 41 2 0 49152 100 0 ++ entry 40 2 255 49152 100 0 ++
    entry 31 0 1 65536 100 99 ++ entry 60 2 255 2000 10 0
/-- Table 8-6: three entries come in, three are skipped, programme 1 plays clip 30. -/
theorem test_startup_load_end :
    let t := after (.startupLoadEnd ([84, 71, 68, 82] ++ put2 6 ++ put2 (byteSum table86) ++ table86 ++
      List.replicate 1464 255)) (afterAll [.startupStoreReady, .startupStoreReady] State.reset)
    (List.range 128).filter (fun c => (t.clipAt c).state == .active) = [30, 31, 40] ∧
      (t.progAt 1).clip = some 30 ∧ t.callQ.records.map (fun n => (n.cause, n.value)) = [(some .ok, some 3)] := by
  decide +kernel

/-- R19: one step of the ramp. -/
theorem test_frame_boundary : ((after .frameBoundary (after (.mute .st1 [2, 1]) talking)).posAt 2).ramp = 39 := by
  decide +kernel
/-- R182: the block count goes on from 0 after 65535. -/
theorem test_block_boundary : (after .blockBoundary (ready.modTmn (fun t =>
    { t with blockCount := 65535, frames := 40 }))).tmn.blockCount = 0 := by decide +kernel
/-- R14: each call is released with one notice. -/
theorem test_grace_expiry :
    (after .graceTimerExpiry (talking.modTmn (fun t => { t with running := true, grace := 5, elapsed := 100 }))).callQ.records.map
      (fun n => (n.kind, n.position, n.cause)) =
      [(.callReleased, some 2, some .lineLoss), (.callReleased, some 5, some .lineLoss)] := by decide +kernel
/-- Table 10-3: sync 4 after 2060 ticks restarts, sync 19 locks and is a boundary at a phase of 1830. -/
theorem test_line_sync : (after (.lineSync (Vector.replicate 32 0)) (ready.modTmn (fun t =>
      { t with state := .acquiring, count := 3, syncTicks := 2060 }))).tmn.count = 1 ∧
    (after (.lineSync (Vector.replicate 32 0)) (ready.modTmn (fun t =>
      { t with state := .acquiring, count := 15, syncTicks := 2046, frameTimer := 1830 }))).tmn.boundary.isSome = true := by
  decide +kernel
theorem test_acquisition_timeout : (after .acquisitionTimeout (ready.modTmn (fun t =>
    { t with state := .acquiring, count := 3, syncTicks := 2112 }))).tmn.state = .freeRun := by decide +kernel
/-- R176. -/
theorem test_clock_fail : let t := after .clockFail (ready.modTmn (fun t => { t with state := .locked, count := 16, elapsed := 11 }))
    t.tmn.failFlag = true ∧ t.tmn.elapsed = 0 ∧ t.callQ.records.map (·.kind) = [.clockFail] := by decide +kernel
/-- R158: the 64th good word brings the link UP. -/
theorem test_headset_word : ((frames 63 (word 0 false) ready).linkAt 6).state = .probing ∧
    ((frames 64 (word 0 false) ready).linkAt 6).state = .up := by decide +kernel
/-- R154: one word a frame from each port, P0 first. -/
theorem test_word_order : (after (.headsetWordArrival 6 (word 0 false)) ready).words = 7 ∧
    (afterAll [.headsetWordArrival 6 (word 0 false), .headsetWordArrival 6 (word 0 false)] ready).linkAt 6 =
      (after (.headsetWordArrival 6 (word 0 false)) ready).linkAt 6 := by decide +kernel
/-- Table 12-6: a sample of -2 with the present bit, no button, 16 ones: the parity bit is 0. -/
theorem test_word_fields : word (-2) false = 0b1111111111111110100 ∧ inboundSample (word (-2) false) = -2 := by
  decide +kernel

/-- R140: from the slot after the last served one, S0 after S23. -/
theorem test_fetch_grant : (after .fetchGrant (playing.modStore (fun u => { u with lastServed := 4 }))).store.lastServed = 5 ∧
    (after .fetchGrant (playing.modStore (fun u => { u with lastServed := 23 }))).store.lastServed = 1 := by
  decide +kernel
/-- R119. -/
theorem test_fetch_arrival :
    let t := after (.fetchArrival (List.replicate 36 255)) (after .fetchGrant (playing.modStore (fun u => { u with lastServed := 3 })))
    (t.slotAt 4).buffer.length = 39 ∧ (t.slotAt 4).left = 100 ∧ (t.slotAt 4).repeats = some 0 ∧
      t.store.activity = .idle := by decide +kernel
theorem test_fetch_timeout : (after .fetchTimeout (after .fetchGrant playing)).store.fetch = none := by decide +kernel
theorem test_step_start : (after .operationStepStart (storing .erase 0 .notStarted .idle)).phase = some .waitReady := by
  decide +kernel
/-- Table 8-5: sector 300. -/
theorem test_step_ready : (after .stepStoreReady (storing .erase 0 .waitReady .idle)).store.request = some (.erase 300) := by
  decide +kernel
/-- Table 8-5: STORE_DONE(ERASE, OK, 300). -/
theorem test_erase_done : (after .eraseDone (storing .erase 0 .erasing .eraseRunning)).maintQ.records.map
    (fun n => (n.kind, n.subject, n.cause, n.value)) = [(.storeDone, some 0, some .ok, some 300)] := by decide +kernel
theorem test_erase_timeout : (after .eraseTimeout (storing .erase 0 .erasing .eraseRunning)).store.op = none := by
  decide +kernel
theorem test_suspend_timeout : (after .suspendTimeout (storing .erase 0 .suspending .fetch)).store.activity = .fetch := by
  decide +kernel
theorem test_erase_resume : (after .eraseResume (storing .erase 0 .suspended .eraseSuspended)).store.activity =
    .eraseRunning := by decide +kernel
/-- R149: a save goes on after its seventh step, and ends after its eighth. -/
theorem test_program_done : (after .programDone (storing .save 6 .programming .program)).phase = some .notStarted ∧
    (after .programDone (storing .save 7 .programming .program)).store.op = none := by decide +kernel
theorem test_program_timeout : (after .programTimeout (storing .save 2 .programming .program)).store.op = none := by
  decide +kernel
theorem test_read_serve : (after .storeReadServe (reading false ready)).store.activity = .read := by decide +kernel
theorem test_read_complete : reply (after (.storeReadComplete [1, 2]) (after .storeReadServe
    (after (.storeRead .st4 [0, 0, 0, 2]) ready))) = some (.done, false, [1, 2]) := by decide +kernel
theorem test_read_abandon : reply (after .storeReadAbandon (after (.storeRead .st4 [0, 0, 0, 2]) ready)) =
    some (.busy, false, []) := by decide +kernel

/-- R185: the frame 81 04 10 03 05 07, check 5C (hex), is CONNECT to part 16. -/
theorem test_characters :
    (execAll ((character true 0x81 :: [4, 0x10, 3, 5, 7, 0x5C].map (character false)).map (fun ch => .goodCharacter ch (.ended 0)))
      { ready with port := { ready.port with address := 16 } } |> fun o => match o with
        | .next t => (t.posAt 3).call
        | _ => .free) = .connected := by decide +kernel
/-- Table 11-1: start bit, the data 81 (hex) least significant bit first, marker 1, parity 1, stop bit 1; with a wrong parity
or stop bit the character is bad. -/
theorem test_character_bits : character true 0x81 = 0b111100000010 ∧ charGood 0b111100000010 = true ∧
    charGood 0b101100000010 = false ∧ charGood 0b011100000010 = false := by decide +kernel
theorem test_receiver_idle : (after .receiverIdleTimeout
    (after (.goodCharacter (character true 1) (.ended 0)) ready)).port.state = .sleep := by
  decide +kernel
theorem test_frame_abandoned : (after (.frameAbandoned (.newHeader 2))
    (after (.goodCharacter (character true 1) (.ended 0)) ready)).port.station = some .st2 := by decide +kernel
theorem test_link_break : reply (after .linkBreak (after (.resume .st1 [2]) ready)) = none := by decide +kernel
/-- R184: the last 3 bits of the character are low, and 21 bit times more make a break, 20 do not. -/
theorem test_low_wire : reply (after (.goodCharacter 0b000110000000 (.ended 21)) (after (.resume .st1 [2]) ready)) = none ∧
    (reply (after (.goodCharacter 0b000110000000 (.ended 20)) (after (.resume .st1 [2]) ready))).isSome = true := by decide +kernel
theorem test_unknown_command : reply (after (.unknownCommand .st1 [0x17]) ready) = some (.unknown, false, []) ∧
    reply (after (.unknownCommand .st5 [0x10]) ready) = some (.role, false, []) := by decide +kernel
/-- The reply of RESUME to a FREE position, 12 bit times after the frame. -/
def due12 : State :=
  (after (.resume .st1 [3]) ready).modPort (fun q =>
    { q with quiet := 197, owed := q.owed.map (fun o => { o with clock := 197 }) })
/-- R189: with another station's character under way the wire is not high, so the reply that is due else does not begin. -/
theorem test_reply_waits_for_a_character :
    due (after (.goodCharacter (character true 1) (.begins 0)) due12) = none ∧ due due12 = some .replyStart := by
  decide +kernel
/-- R189: header 0, length 2, code 12, status STATE (5), and a check byte that makes the sum 0. -/
theorem test_reply_start : (after .replyStart due12).port.sending =
    some [0, 2, 0x12, 5, 0xE7] := by decide +kernel
theorem test_reply_drop : (after .replyDrop (after (.resume .st1 [3]) ready)).port.owed = none := by decide +kernel
theorem test_reply_collision : (after .replyCollision (after .replyStart due12)).port.sending =
    none := by decide +kernel
theorem test_reply_end : (after .replyEnd (after .replyStart due12)).port.sending = none := by
  decide +kernel

theorem test_connect : ((after (.connect .st1 [3, 5, 7]) talking).posAt 3).binding = some { rx := 5, tx := 7 } ∧
    reply (after (.connect .st1 [3, 5, 9]) talking) = some (.inUse, false, []) := by decide +kernel
theorem test_hold : ((after (.hold .st2 [2, 1]) talking).progAt 1).listeners = 2 := by decide +kernel
theorem test_resume : ((after (.resume .st1 [5]) playing).slotAt 1).dir = some .falling := by decide +kernel
/-- R13. -/
theorem test_release : (after (.release .st1 [2]) playing).floorQ.records.map (fun n => (n.kind, n.position, n.value)) =
    [(.monitorEnded, some 2, some 9), (.whisperFlushed, some 2, some 1)] := by decide +kernel
theorem test_mute : ((after (.mute .st1 [2, 1]) talking).posAt 2).effMute = true := by decide +kernel
theorem test_set_call_gains : reply (after (.setCallGains .st1 [2, 0xFF, 0xFF, 0, 1]) talking) = some (.done, true, []) ∧
    ((after (.setCallGains .st1 [2, 0xFF, 0xFF, 0, 1]) talking).posAt 2).rxGain = 16383 := by decide +kernel
theorem test_set_sidetone : ((after (.setSidetone .st4 [2, 4, 7]) talking).posAt 2).sidetone = 1031 := by decide +kernel
/-- Table 2-3: a gain of 20000 is stored as 16383; another supervisor is refused IN_USE. -/
theorem test_monitor : ((after (.monitor .st3 [9, 2, 1, 78, 32]) talking).posAt 9).relation.bind (·.gain) = some 16383 ∧
    reply (after (.monitor .st3 [10, 2, 1, 16, 0]) talking) = some (.inUse, false, []) := by decide +kernel
theorem test_unmonitor : ((after (.unmonitor .st3 [2]) talking).posAt 9).relation = none ∧
    reply (after (.unmonitor .st3 [9]) talking) = some (.state, false, []) := by decide +kernel
theorem test_whisper_prompt : ((after (.whisperPrompt .st3 [5, 40, 23, 112, 0]) media).slotAt 4).gain = some 6000 ∧
    (after (.whisperPrompt .st3 [5, 40, 23, 112, 0]) crowded).waitList = [5] := by decide +kernel
theorem test_clear_whispers : reply (after (.clearWhispers .st3 [2]) playing) = some (.done, false, [1]) := by
  decide +kernel
theorem test_set_ec : reply (after (.setEc .st4 [6, 0, 5, 1, 9]) ready) = some (.done, true, []) ∧
    ((after (.setEc .st4 [6, 0, 5, 1, 9]) ready).ecAt 6).step = 1 := by decide +kernel
/-- R80, R84: a lowered request frees the tail of the list. -/
theorem test_lowered_request : (after (.setEc .st4 [6, 8, 1, 0, 0]) linked).segsOf 6 = [] := by decide +kernel
theorem test_reset_ec : ((after (.resetEc .st4 [6]) (ready.modEc 6 (fun c => { c with hangover := 9 }))).ecAt 6).hangover = 0 := by
  decide +kernel
theorem test_set_levels : ((after (.setLevels .st4 [24, 16, 20, 8, 8, 64]) ready).levAt 7).atten = 20 := by decide +kernel
theorem test_set_neighbours : ((after (.setNeighbours .st4 [4, 2, 5, 3]) ready).levAt 4).neighbours = [5, 3] ∧
    reply (after (.setNeighbours .st4 [4, 2, 5, 4]) ready) = some (.range, false, []) := by decide +kernel
theorem test_clip_load : ((after (.clipLoad .st4 [7, 0, 0, 16, 0, 0, 0, 64, 0, 0, 63]) ready).clipAt 7).body =
      some { cls := .music, start := 4096, length := 64, loop := some 63 } ∧
    reply (after (.clipLoad .st4 [7, 0, 0, 16, 0, 0, 0, 64, 0, 0, 64]) ready) = some (.range, false, []) := by
  decide +kernel
theorem test_clip_delete : reply (after (.clipDelete .st4 [40]) media) = some (.done, false, [0]) ∧
    reply (after (.clipDelete .st4 [30]) media) = some (.inUse, false, []) := by decide +kernel
/-- Table 7-7: a change waits for the pass end of a slot that plays. -/
theorem test_set_programme : ((after (.setProgramme .st4 [1, 31]) playing).progAt 1).pending = .clip 31 ∧
    ((after (.setProgramme .st4 [0, 31]) media).progAt 0).clip = some 31 := by decide +kernel
theorem test_caller_prompt : reply (after (.callerPrompt .st1 [5, 20, 16, 0, 2, 1]) media) = some (.done, false, [4]) ∧
    reply (after (.callerPrompt .st1 [2, 20, 16, 0, 2, 1]) crowded) ≠ some (.done, false, [4]) := by decide +kernel
theorem test_stop_prompt : ((after (.stopPrompt .st1 [5]) playing).slotAt 4).cause = some .stopped := by decide +kernel
/-- Table 8-5: the erase of sector 1, with clip 30 bound there, is refused. -/
theorem test_store_erase : reply (after (.storeErase .st4 [0, 1]) media) = some (.inUse, false, []) ∧
    ((after (.storeErase .st4 [0, 10]) media).clipAt 40).fenced = true := by decide +kernel
theorem test_store_write : reply (after (.storeWrite .st4 [0, 255, 255, 2, 1, 2]) ready) = some (.range, false, []) ∧
    reply (after (.storeWrite .st4 [0, 255, 254, 2, 1, 2]) ready) = some (.taken, false, []) := by decide +kernel
theorem test_store_read : (after (.storeRead .st4 [255, 255, 240, 16]) ready).store.read.isSome = true ∧
    reply (after (.storeRead .st4 [255, 255, 240, 17]) ready) = some (.range, false, []) := by decide +kernel
theorem test_save_directory : ((after (.saveDirectory .st4 []) media).store.op.map (fun o => o.data.take 6)) =
    some [84, 71, 68, 82, 0, 4] := by decide +kernel
theorem test_set_grace : (after (.setGrace .st4 [1, 0]) ready).tmn.grace = 255 ∧
    reply (after (.setGrace .st4 [1, 0]) ready) = some (.done, true, []) := by decide +kernel
theorem test_force_clock_fail : (after (.forceClockFail .st4 [1]) ready).tmn.force = true := by decide +kernel
theorem test_ack_clock_fail : (after (.ackClockFail .st1 []) (State.reset.modTmn (fun t =>
    { t with failFlag := true, elapsed := 9 }))).tmn.elapsed = 0 := by decide +kernel
/-- Table 12-4: 66 bytes; P5 is HELD (2) on timeslots 7 and 9. -/
theorem test_read_position : (reply (after (.readPosition .st3 [5]) talking)).map (fun r => (r.2.2.length, r.2.2.take 4)) =
    some (66, [2, 7, 9, 1]) := by decide +kernel
theorem test_read_stream : (reply (after (.readStream .st1 [4]) playing)).map (fun r => (r.2.2.length, r.2.2.take 4)) =
    some (22, [2, 2, 5, 20]) := by decide +kernel
theorem test_read_clip : (reply (after (.readClip .st1 [30]) media)).map (fun r => (r.2.2.length, r.2.2.drop 13)) =
    some (15, [2, 0]) := by decide +kernel
theorem test_read_timing : (reply (after (.readTiming .st1 []) State.reset)).map (fun r => (r.2.2.length, r.2.2.take 6)) =
    some (14, [0, 0, 0, 0, 50, 0]) := by decide +kernel
theorem test_read_pool : (reply (after (.readPool .st1 []) linked)).map (fun r => (r.2.2.length, r.2.2.take 2)) =
    some (178, [63, 0]) := by decide +kernel
/-- R194: the flag, the number and the record; Table 12-2: a STARTED record (9) with cause NO_STORE (14). -/
theorem test_fetch_notices : reply (after (.fetchNotices .st1 [4]) (after .startupNoStore State.reset)) =
    some (.done, false, [0, 1, 9, 255, 255, 14, 0, 0, 0, 0, 0]) := by decide +kernel

/-! ### Part 3. A state and operands for the hypotheses of each statement

The laws that are hypotheses, at `ready` and `talking`. -/

/-- What holds of every value that an Option may carry, from a check. -/
theorem of_all {α : Type} {P : α → Prop} [DecidablePred P] {o : Option α} (h : o.all (fun b => decide (P b)) = true) :
    ∀ b, o = some b → P b := by rintro b rfl; simpa using h

/-- `talking` has the law of relations, in a form that is decided. -/
theorem talking_relations : ∀ p, p < 16 → ((talking.posAt p).relation.all (fun r =>
    decide (r.other < 16 ∧ r.other ≠ p ∧
      (talking.posAt r.other).relation = some { form := r.form.mirror, other := p, mode := r.mode, gain := r.gain } ∧
      (r.form = .monitoring ↔ (talking.posAt p).call = .free) ∧ (r.gain.isSome ↔ r.mode ≠ .listen)))) = true := by
  decide +kernel
theorem talking_relationLaw : RelationLaw talking := fun p hp => of_all (talking_relations p hp)

theorem talking_records : ∀ p, p < 16 →
    (((talking.posAt p).binding.isSome ↔ (talking.posAt p).call ≠ .free) ∧
      ((talking.posAt p).hold.isSome ↔ (talking.posAt p).call = .held)) ∧
    ((talking.posAt p).binding.all (fun b => decide (b.rx < 32 ∧ b.tx < 32))) = true ∧
    ((talking.posAt p).hold.all (fun k => decide (k < 4))) = true := by decide +kernel
theorem talking_recordLaw : RecordLaw talking := fun p hp =>
  have h := talking_records p hp
  ⟨h.1.1, h.1.2, of_all h.2.1, of_all h.2.2⟩

theorem talking_muteLaw : MuteLaw talking := by unfold MuteLaw; decide +kernel
theorem talking_listenerLaw : ListenerLaw talking := by unfold ListenerLaw; decide +kernel
theorem talking_whisperLaw : WhisperLaw talking := by unfold WhisperLaw; decide +kernel

theorem talking_timeslots : ∀ p, p < 16 → ∀ q, q < 16 → p ≠ q →
    ((talking.posAt p).binding.all (fun b => decide (((talking.posAt q).binding.all (fun c => decide (b.tx ≠ c.tx))) = true)))
      = true := by decide +kernel
theorem talking_sendLaw : SendLaw talking := fun p hp q hq hpq b c hb hc =>
  of_all (P := fun c => b.tx ≠ c.tx) (of_all (P := fun b => (talking.posAt q).binding.all (fun c => decide (b.tx ≠ c.tx)) = true)
    (talking_timeslots p hp q hq hpq) b hb) c hc

theorem ready_segments : (∀ p, p < 16 → ready.segsOf p = []) ∧ (∀ g, g < 64 → ready.segAt g = Segment.free) := by
  decide +kernel
theorem ready_poolLaw : PoolLaw ready := by
  refine ⟨fun p hp => by simp [ready_segments.1 p hp], fun g hg => ⟨fun p => ?_, fun _ => ?_⟩, fun p hp => ?_⟩
  · rw [ready_segments.2 g hg]
    simp only [Segment.free, reduceCtorEq, false_iff, not_and]
    intro hp; simp [ready_segments.1 p hp]
  · rw [ready_segments.2 g hg]; rfl
  · exact absurd hp (by simp [ready, State.reset, Pool.reset])
theorem ready_shortfallLaw : ShortfallLaw ready := by
  refine ⟨by decide +kernel, by decide +kernel, ?_⟩; decide +kernel

theorem ready_slots : (∀ i, i < 4 → (ready.slotAt i).kind = some .programme ∧ (ready.slotAt i).target = some i) ∧
    (∀ i, i < 24 → (ready.slotAt i).state = .idle) ∧ (∀ i, i < 24 → (ready.slotAt i).buffer = []) := by decide +kernel
theorem ready_slotLaw : SlotLaw ready :=
  ⟨ready_slots.1, fun i _ h' h => absurd (ready_slots.2.1 i h') h,
    fun i hi _ _ _ _ h => absurd (ready_slots.2.1 i hi) h.1, List.nodup_nil,
    fun _ h => absurd h (List.not_mem_nil), fun h => absurd rfl h⟩
theorem ready_clips : (∀ c, c < 128 → ready.clipAt c = Clip.empty ∧ ready.playing c = 0) ∧
    (∀ k, k < 4 → ready.progAt k = Programme.reset) := by decide +kernel
theorem ready_catalogueLaw : CatalogueLaw ready := by
  refine ⟨fun c hc => ?_, fun k hk c h => ?_⟩
  · rw [(ready_clips.1 c hc).1, (ready_clips.1 c hc).2]; simp [Clip.empty]
  · rw [ready_clips.2 k hk] at h; simp [Programme.reset, Programme.binds] at h
theorem ready_fenceLaw : FenceLaw ready := by unfold FenceLaw; decide +kernel
theorem ready_levelLaw : LevelLaw ready := by
  refine ⟨by decide +kernel, fun p hp => ?_⟩
  have h : ∀ p, p < 16 → ready.levAt p = Level.reset := by decide +kernel
  rw [h p hp]; simp [Level.reset]; decide
theorem ready_cancellers : (∀ p, p < 16 → ready.ecAt p = Canceller.reset) ∧ (∀ p, p < 16 → ready.linkAt p = Link.reset) ∧
    (∀ p, p < 16 → ready.levAt p = Level.reset ∧ ready.mixAt p = Mix.reset) := by decide +kernel
theorem reset_history : ∀ x ∈ Canceller.reset.history, x = 0 := fun _ h => List.eq_of_mem_replicate h
theorem free_coeffs : ∀ x ∈ List.replicate 32 (0 : Int), x = 0 := fun _ h => List.eq_of_mem_replicate h
theorem ready_cancellerLaw : CancellerLaw ready := by
  refine ⟨fun p hp => ?_, fun g hg => ?_⟩
  · rw [ready_cancellers.1 p hp]
    exact ⟨by decide +kernel, fun x hx => by rw [reset_history x hx]; exact ⟨by decide, by decide⟩, ⟨by decide, by decide⟩,
      by decide, by decide, by decide, by decide, by decide, by decide⟩
  · rw [ready_segments.2 g hg]
    exact ⟨by decide, fun a ha => by rw [free_coeffs a ha]; decide⟩
theorem ready_linkLaw : LinkLaw ready := fun p hp => by
  rw [ready_cancellers.2.1 p hp]; exact ⟨by decide, by decide, ⟨by decide, by decide⟩, by decide, by decide, by decide⟩
theorem ready_totalsLaw : TotalsLaw ready := by
  refine ⟨by decide, by decide, by decide, fun p hp => ?_⟩
  rw [(ready_cancellers.2.2 p hp).1, (ready_cancellers.2.2 p hp).2]
  exact ⟨by decide, Nat.zero_le _, Nat.zero_le _, Nat.zero_le _⟩
theorem ready_noticeLaw : NoticeLaw ready := by intro r; cases r <;> decide +kernel
theorem ready_timingLaw : TimingLaw ready := by unfold TimingLaw; decide +kernel
theorem ready_storeLinkLaw : StoreLinkLaw ready := ⟨rfl, rfl, .inl rfl⟩
theorem ready_fetchLaw : FetchLaw ready :=
  ⟨fun f h => by simp [ready, Store.reset] at h, fun i hi => by rw [ready_slots.2.2 i hi]; simp⟩

/-! What every step keeps: a state with the law, and its step. -/

theorem ready_steps : step ready = .next (tick ready) := rfl
theorem talking_steps : step talking = .next (tick talking) := rfl

theorem witness_RecordsAndListenersStayConsistent : ∃ s t, True ∧ (MuteLaw s ∧ RecordLaw s ∧ ListenerLaw s) ∧ step s = .next t :=
  ⟨_, _, trivial, ⟨talking_muteLaw, talking_recordLaw, talking_listenerLaw⟩, talking_steps⟩
theorem witness_SendTimeslotsStayDistinct : ∃ s t, True ∧ SendLaw s ∧ step s = .next t :=
  ⟨_, _, trivial, talking_sendLaw, talking_steps⟩
theorem witness_RelationsStayPaired : ∃ s t, True ∧ RelationLaw s ∧ step s = .next t :=
  ⟨_, _, trivial, talking_relationLaw, talking_steps⟩
theorem witness_WhisperQueuesStayShort : ∃ s t, True ∧ WhisperLaw s ∧ step s = .next t :=
  ⟨_, _, trivial, talking_whisperLaw, talking_steps⟩
theorem witness_SlotsStayExclusive : ∃ s t, True ∧ SlotLaw s ∧ step s = .next t :=
  ⟨_, _, trivial, ready_slotLaw, ready_steps⟩
theorem witness_CatalogueStaysTrue : ∃ s t, FetchLaw s ∧ (CatalogueLaw s ∧ FenceLaw s) ∧ step s = .next t :=
  ⟨_, _, ready_fetchLaw, ⟨ready_catalogueLaw, ready_fenceLaw⟩, ready_steps⟩
theorem witness_SegmentsStayAccountedFor : ∃ s t, True ∧ (PoolLaw s ∧ ShortfallLaw s ∧ CancellerLaw s) ∧ step s = .next t :=
  ⟨_, _, trivial, ⟨ready_poolLaw, ready_shortfallLaw, ready_cancellerLaw⟩, ready_steps⟩
theorem witness_LevelsStayInRange : ∃ s t, True ∧ (LinkLaw s ∧ LevelLaw s ∧ TotalsLaw s) ∧ step s = .next t :=
  ⟨_, _, trivial, ⟨ready_linkLaw, ready_levelLaw, ready_totalsLaw⟩, ready_steps⟩
theorem witness_AttentionFollowsTheQueues : ∃ s t, True ∧ NoticeLaw s ∧ step s = .next t :=
  ⟨_, _, trivial, ready_noticeLaw, ready_steps⟩
theorem witness_TimingStateStaysConsistent : ∃ s t, True ∧ TimingLaw s ∧ step s = .next t :=
  ⟨_, _, trivial, ready_timingLaw, ready_steps⟩
theorem witness_StoreLinkStaysConsistent : ∃ s t, True ∧ (StoreLinkLaw s ∧ FetchLaw s) ∧ step s = .next t :=
  ⟨_, _, trivial, ⟨ready_storeLinkLaw, ready_fetchLaw⟩, ready_steps⟩

/-! The functional statements, clause by clause, in the order of Obligations.lean. -/

/-- A timing state. -/
def timed (f : Timing → Timing) : State := ready.modTmn f
/-- The receiver in a state of a frame of length `n`, from station 1. -/
def receiving (x : ReceiverState) (n : Nat) (body : List Byte) (sum : Byte) : State :=
  ready.modPort (fun q => { q with state := x, station := some .st1, length := n, body := body, sum := sum })
/-- A reply owed. -/
def owing (waiting : Bool) (clock : Nat) (sending : Option (List Byte)) : State :=
  ready.modPort (fun q =>
    { q with owed := some { station := .st1, code := 0x12, status := .state, clamped := false, data := [],
                            waiting := waiting, clock := clock }, sending := sending })

/-- A character under way since the given ticks. -/
def underWay (clock : Nat) : State :=
  ready.modPort (fun q => { q with coming := some { ch := character true 1, low := 0, clock := clock } })
/-- R184: the character under way ends 12 bit times, 197 ticks, after its falling edge. -/
theorem test_character_ends : due (underWay 196) = none ∧
    due (underWay 197) = some (.goodCharacter (character true 1) (.ended 0)) := by decide +kernel

theorem witness_EmptyQueueBringsTheTimersEvents :
    ready.pending = [] ∧ due ready = none ∧
    (timed (fun t => { t with running := true, grace := 5, elapsed := 100 })).tmn.graceOver = true ∧
    (let s := timed (fun t => { t with boundary := some .internal })
     s.tmn.graceOver = false ∧ s.tmn.boundary.isSome = true) ∧
    (let s := timed (fun t => { t with frameTimer := 2048 })
     s.tmn.graceOver = false ∧ s.tmn.boundary.isNone = true ∧ s.tmn.state ≠ .locked) ∧
    (let s := timed (fun t => { t with state := .locked, count := 16, syncTicks := 2112 })
     s.tmn.graceOver = false ∧ s.tmn.boundary.isNone = true ∧ s.tmn.state = .locked) ∧
    (let s := timed (fun t => { t with state := .acquiring, count := 1, frameTimer := 2047, syncTicks := 2112 })
     s.tmn.graceOver = false ∧ s.tmn.boundary.isNone = true ∧ s.tmn.state = .acquiring) ∧
    ((underWay 197).dueTiming = none ∧
      (underWay 197).port.coming = some { ch := character true 1, low := 0, clock := 197 } ∧
      ((12 + min 0 (24 - lowAfter (character true 1))) * 16384 + 999) / 1000 = 197) ∧
    (let s := (receiving .length 0 [] 1).modPort (fun q => { q with idle := 590 })
     s.port.coming = none ∧ s.dueTiming = none ∧ s.port.state ≠ .sleep ∧ s.port.idle = 590) ∧
    (let s (n : Nat) := (owing false 32768 none).modPort (fun q => { q with quiet := n })
     (s 196).port.coming = none ∧ (s 196).dueTiming = none ∧ (s 196).port.state = .sleep ∧
       (s 196).port.owed.map (fun o => (o.waiting, o.clock)) = some (false, 32768) ∧ (s 197).port.sending = none ∧
       (s 197).resetHeld = false ∧ (s 197).port.quiet = 197) ∧
    (let s (x : StartupPhase) (n : Nat) := ready.modStore (fun u => { u with startup := some { phase := x, clock := n } })
     ∀ t ∈ [s .waitReady 6553600, s .abandoned 81920, s .reading 81920],
       t.dueTiming = none ∧ t.port.due t.resetHeld = none) ∧
    (let s := (reading false ready).modStore (fun u => { u with read := u.read.map (fun r => { r with clock := 16384 }) })
     s.dueTiming = none ∧ s.port.due s.resetHeld = none ∧ s.store.startup = none ∧ s.store.read.map (·.clock) = some 16384) ∧
    (let s (x : StepPhase) (a : LinkActivity) (run n : Nat) := (storing .erase 0 x a).modStore (fun u =>
      { u with op := u.op.map (fun o => { o with runTime := run, clock := n }) })
     ∀ t ∈ [s .erasing .eraseRunning 6553600 0, s .suspending .eraseSuspended 9 81920, s .programming .program 0 81920],
       t.dueTiming = none ∧ t.port.due t.resetHeld = none ∧ t.store.startup = none ∧ t.store.read = none ∧
         t.store.op.isSome = true) ∧
    (let f : Fetch := { slot := 4, addr := 49216, count := 36, live := true, clock := 81920 }
     let s := ready.modStore (fun u => { u with activity := .fetch, fetch := some f })
     s.dueTiming = none ∧ s.port.due s.resetHeld = none ∧ s.store.startup = none ∧ s.store.read = none ∧ s.store.op = none) ∧
    (let asks (s : State) (i : Nat) := ((s.slotAt i).state = .priming ∨ (s.slotAt i).state = .playing ∨
       (s.slotAt i).state = .stopping) ∧ (s.slotAt i).buffer.length ≤ 192 ∧ 0 < (s.slotAt i).left
     (∀ s ∈ [reading false playing, playing, storing .erase 0 .suspended .eraseSuspended, storing .erase 0 .notStarted .idle],
       s.dueTiming = none ∧ s.port.due s.resetHeld = none ∧ s.store.overdue = none ∧ s.phase ≠ some .waitReady) ∧
     (reading false playing).store.read.map (·.holding) = some false ∧ playing.store.read = none ∧ asks playing 4 ∧
     (∀ i, i < 24 → ¬ asks (storing .erase 0 .notStarted .idle) i)) := by
  refine ⟨?_, ?_, ?_, ?_, ?_, ?_, ?_, ?_, ?_, ?_, ?_, ?_, ?_, ?_, ?_⟩ <;> decide +kernel

theorem witness_DeviceResetAndHeldPin : ({ ready with resetHeld := true } : State).resetHeld = true := rfl

theorem witness_FramesAreCheckedInOrder :
    stationRole .st5 = none ∧ stationRole .st1 = some .call ∧ (∀ row ∈ commandRules, row.code ≠ (0x17 : Byte).toNat) ∧
    (∃ row ∈ commandRules, row.code = (0x16 : Byte).toNat ∧ Role.call ∉ row.roles) ∧
    (∃ row ∈ commandRules, row.code = (0x10 : Byte).toNat ∧ Role.call ∈ row.roles ∧ row.fits [3, 5] = false ∧
      row.fits [3, 5, 7] = true ∧ row.starting = false) ∧ State.reset.mode = .starting := by decide +kernel

theorem witness_CharactersOfAFrameRunItsCommand : ready.port.sending = none ∧ 1 ≤ ([0x10] : List Byte).length ∧
    (0x51 :: List.replicate 39 0 : List Byte).length ≤ 40 := by decide +kernel

theorem witness_ReceiverMovesAtEachGoodCharacter :
    ready.port.coming = none ∧ (underWay 1).port.coming ≠ none ∧ (owing false 0 (some [0])).port.sending ≠ none ∧
    (∀ s ∈ [ready, receiving .length 0 [] 1, receiving .body 2 [] 3, receiving .check 1 [0x12] 0x14], s.port.sending = none) ∧
    24 ≤ lowAfter 0 + 12 ∧ charGood 0 = false ∧ lowAfter 0 + 11 < 24 ∧
    (255 : Byte).toNat = 8 * (ready.modPort (fun q => { q with address := 31 })).port.address.toNat + stationNumber .st7 ∧
    (∀ st, (0 : Byte).toNat ≠ 8 * ready.port.address.toNat + stationNumber st) ∧
    ready.port.state = .sleep ∧ (receiving .length 0 [] 1).port.state = .length ∧
    (let q := (receiving .body 2 [] 3).port
     q.state = .body ∧ q.body.length + 1 < q.length) ∧
    (let q := (receiving .body 1 [] 2).port
     q.state = .body ∧ q.length = q.body.length + 1) ∧
    (let q := (receiving .check 1 [0x12] 0x14).port
     q.state = .check ∧ q.station = some .st1 ∧ q.body ≠ [] ∧ q.sum + 0xEC = 0 ∧ q.sum + 0xED ≠ 0) := by
  refine ⟨?_, ?_, ?_, ?_, ?_, ?_, ?_, ?_, fun st => ?_, ?_⟩
  all_goals first | decide +kernel | (cases st <;> decide +kernel)

theorem witness_AbandonedFramesAndBreaksTouchNoBlock :
    (receiving .length 0 [] 1).port.state = .length ∧ (receiving .length 0 [] 1).port.sending = none ∧
    charGood 0 = false ∧ charGood (character false 7) = true ∧ 40 < (41 : Byte).toNat ∧ (receiving .check 1 [0x12] 0x14).port.state = .check ∧
    (receiving .check 1 [0x12] 0x14).port.sending = none ∧ (receiving .check 1 [0x12] 0x14).port.sum + 0 ≠ 0 := by
  decide +kernel

theorem witness_RepliesAreSentDroppedOrCutOff :
    (let s := (owing false 197 none).modPort (fun q => { q with quiet := 197 })
     s.port.owed.map (fun o => (o.waiting, o.clock)) = some (false, 197) ∧ s.port.quiet = 197 ∧ s.port.coming = none ∧ s.port.sending = none ∧
       s.resetHeld = false) ∧
    (owing false 196 none).port.owed.map (·.clock) = some 196 ∧
    (owing true 0 none).port.owed.map (·.waiting) = some true ∧ ready.port.owed = none ∧
    (owing false 0 (some [0])).port.sending ≠ none := by decide +kernel

/-! Calls and supervision. -/

/-- A station's role and READY, at any state with the mode of `ready`. -/
theorem heeded {s : State} {st : Station} {r : Role} (h : stationRole st = some r ∧ s.mode = .ready) : s.heeds st r := h

/-- P2 to P15 leave the send timeslot 7 free at `talking`. -/
theorem talking_free7 : ∀ q, q < 16 → ∀ b, (talking.posAt q).binding = some b → b.tx ≠ 7 := fun q hq => by
  have h : ∀ q, q < 16 → (talking.posAt q).binding.all (fun b => decide (b.tx ≠ 7)) = true := by decide +kernel
  exact of_all (h q hq)

theorem witness_ConnectSetsUpTheCall :
    talking.heeds .st1 .call ∧ (talking.posAt 15).call = .free ∧ (talking.posAt 9).call = .free ∧
    (∀ q, q < 16 → q ≠ 15 → ∀ b, (talking.posAt q).binding = some b → b.tx ≠ 7) ∧
    (∀ r, (talking.posAt 15).relation = some r → r.form ≠ .monitoring) ∧
    (∃ r, (talking.posAt 9).relation = some r ∧ r.form = .monitoring) :=
  ⟨heeded (by decide +kernel), by decide +kernel, by decide +kernel, fun q hq _ => talking_free7 q hq,
    of_all (by decide +kernel), { form := .monitoring, other := 2, mode := .whisper, gain := some 1000 }, by decide +kernel, rfl⟩

theorem witness_CallCommandsAreRefusedInOrder :
    talking.heeds .st2 .call ∧ talking.heeds .st4 .maint ∧ (talking.posAt 2).call ≠ .free ∧
    (talking.posAt 0).call = .free ∧ (∃ b, (talking.posAt 5).binding = some b ∧ b.tx = 9) :=
  ⟨heeded (by decide +kernel), heeded (by decide +kernel), by decide +kernel, by decide +kernel,
    { rx := 7, tx := 9 }, by decide +kernel, rfl⟩

theorem witness_HoldAndResumeMoveTheListener :
    talking.heeds .st1 .call ∧ (talking.posAt 2).call = .connected ∧ (talking.posAt 5).call = .held ∧
    (talking.posAt 5).hold = some 1 := ⟨heeded (by decide +kernel), by decide +kernel, by decide +kernel, by decide +kernel⟩

/-- `media` with slot S1 as given, and the listeners of programme 1. -/
def holding (n : Nat) (f : Slot → Slot) : State :=
  (media.modProg 1 (fun g => { g with listeners := n })).modSlot 1 (fun x => f { x with clip := some 30 })

theorem witness_ListenerChangesReachTheSlot :
    (0 < (media.progAt 1).listeners ∧ (media.progAt 0).clip = none) ∧
    (let s := holding 0 (fun x => { x with clip := none })
     (s.progAt 1).listeners = 0 ∧ (s.progAt 1).clip = some 30 ∧ (s.slotAt 1).state = .idle ∧
       (s.clipAt 30).body = some (clipBody .music 4096 24000 8000)) ∧
    ((holding 0 (fun x => { x with state := .priming })).slotAt 1).state = .priming ∧
    (let x := (holding 0 (fun x => { x with state := .stopping, begun := true })).slotAt 1
     x.state = .stopping ∧ x.begun = true ∧ x.ramp = 40) ∧
    (let x := (holding 0 (fun x => { x with state := .stopping, begun := true, ramp := 39 })).slotAt 1
     x.state = .stopping ∧ x.begun = true ∧ x.ramp ≠ 40) ∧
    (let x := (holding 0 (fun x => { x with state := .stopping, buffer := [1], left := 9 })).slotAt 1
     x.state = .stopping ∧ x.begun = false ∧ x.buffer.length < 128 ∧ x.left ≠ 0) ∧
    (let x := (holding 0 (fun x => { x with state := .stopping, buffer := List.replicate 128 0, left := 9 })).slotAt 1
     x.state = .stopping ∧ x.begun = false ∧ x.buffer.length = 128) ∧
    1 < ((holding 2 id).progAt 1).listeners ∧
    (let s := holding 1 (fun x => { x with state := .ending })
     (s.progAt 1).listeners ≤ 1 ∧ (s.slotAt 1).state = .ending) ∧
    (let s := holding 1 (fun x => { x with state := .stopping, dir := some .rising })
     (s.progAt 1).listeners ≤ 1 ∧ (s.slotAt 1).dir = some .rising) ∧
    (let s := holding 1 (fun x => { x with state := .stopping, dir := some .falling })
     (s.progAt 1).listeners ≤ 1 ∧ (s.slotAt 1).dir ≠ some .rising) := by decide +kernel

theorem witness_ReleaseTearsTheCallDown :
    talking.heeds .st1 .call ∧ (talking.posAt 2).call ≠ .free ∧ RecordLaw talking ∧ RelationLaw talking :=
  ⟨heeded (by decide +kernel), by decide +kernel, talking_recordLaw, talking_relationLaw⟩

theorem witness_GraceExpiryReleasesEveryCall :
    RecordLaw talking ∧ RelationLaw talking ∧ talking.tmn.running = false ∧
    (let s := talking.modTmn (fun t => { t with running := true, grace := 255, elapsed := 5100 })
     RecordLaw s ∧ RelationLaw s ∧ s.tmn.running = true ∧ 0 < s.tmn.grace ∧ 20 * s.tmn.grace ≤ s.tmn.elapsed) ∧
    (let s := talking.modTmn (fun t => { t with running := true, grace := 255, elapsed := 5099, frames := 40 })
     RecordLaw s ∧ RelationLaw s ∧ s.tmn.running = true ∧ s.tmn.elapsed < 20 * s.tmn.grace ∧
       20 * s.tmn.grace ≤ s.tmn.elapsed + 1 ∧ s.tmn.elapsed < 5100 ∧ 40 ≤ s.tmn.frames) :=
  ⟨talking_recordLaw, talking_relationLaw, by decide +kernel,
    ⟨talking_recordLaw, talking_relationLaw, by decide +kernel⟩, talking_recordLaw, talking_relationLaw, by decide +kernel⟩

theorem witness_MuteAndGainsAreStored : talking.heeds .st2 .call ∧ talking.heeds .st4 .maint :=
  ⟨heeded (by decide +kernel), heeded (by decide +kernel)⟩

theorem witness_MonitorWritesBothRecords :
    talking.heeds .st3 .floor ∧
    (let inUse (b a : Nat) := (∃ c, c ≠ b ∧ talking.supervisorOf a = some c) ∨ (∃ c, c ≠ a ∧ talking.agentOf b = some c)
     (talking.posAt 5).call ≠ .free ∧ (talking.posAt 10).call = .free ∧ inUse 10 2 ∧ inUse 9 5) ∧
    (talking.supervisorOf 5 = none ∧ talking.agentOf 10 = none) ∧
    (talking.supervisorOf 2 = some 9 ∧ talking.agentOf 9 = some 2) :=
  ⟨heeded (by decide +kernel), ⟨by decide +kernel, by decide +kernel, .inl ⟨9, by decide +kernel⟩,
    .inr ⟨2, by decide +kernel⟩⟩, by decide +kernel⟩

theorem witness_WhisperPromptsQueueOrStart :
    media.heeds .st3 .floor ∧ crowded.heeds .st3 .floor ∧ (media.posAt 0).call = .free ∧ (media.posAt 5).call ≠ .free ∧
    (media.clipAt 41).state ≠ .active ∧ (media.clipAt 20).body = some (clipBody .caller 49152 100 0) ∧
    (let s := media.modClip 40 (fun e => { e with fenced := true })
     (s.clipAt 40).state = .active ∧ (s.clipAt 40).body.map (·.cls) = some .whisper ∧ (s.clipAt 40).fenced = true) ∧
    (media.clipAt 40).state = .active ∧ (media.clipAt 40).body = some (clipBody .whisper 40960 1000 0) ∧
    (media.clipAt 40).fenced = false ∧
    (let it : WhisperItem := { clip := 40, gain := 0, admission := .append }
     ((playing.setQueue 2 [it, it, it, it]).queueAt 2).length = 4 ∧ ((playing.setQueue 2 [it, it, it]).queueAt 2).length = 3) ∧
    playing.streamOf .whisper 2 = some 5 ∧ (media.queueAt 5 = [] ∧ media.streamOf .whisper 5 = none ∧ 5 ∉ media.waitList) ∧
    crowded.streamOf .whisper 5 = none ∧ crowded.freeSlot = none ∧ (media.slotAt 4).state = .idle ∧
    5 ∈ (crowded.setWait [5]).waitList :=
  ⟨heeded (by decide +kernel), heeded (by decide +kernel), by decide +kernel⟩

theorem witness_ClearWhispersReportsItsCount :
    playing.heeds .st3 .floor ∧ playing.streamOf .whisper 2 = some 5 ∧ playing.streamOf .whisper 15 = none :=
  ⟨heeded (by decide +kernel), by decide +kernel⟩

/-- `talking` with the words of the frame taken. -/
def spoken : State := talking.setWords 16

theorem witness_FramesFormTheSums :
    (MuteLaw spoken ∧ spoken.tmn.state ≠ .locked ∧ 16 ≤ spoken.words ∧ spoken.tmn.frames < 40) ∧
    (let s := talking.modTmn (fun t => { t with state := .locked, frames := 40 })
     MuteLaw s ∧ s.tmn.state = .locked ∧ s.tmn.boundary.isNone = true) ∧
    (let s := talking.modTmn (fun t => { t with frames := 40 })
     MuteLaw s ∧ s.tmn.state ≠ .locked ∧ 40 ≤ s.tmn.frames ∧ (0 : Fin 16).val = s.words) ∧
    ((1 : Nat) < 16 ∧ 0 < (1 : Nat)) ∧ (spoken.posAt 0).call = .free ∧ (spoken.posAt 2).call = .connected ∧
    ((spoken.posAt 5).call = .held ∧ (spoken.posAt 5).hold = some 1 ∧ spoken.streamOf .caller 5 = none) ∧
    (playing.streamOf .caller 5 = some 4 ∧ (playing.slotAt 4).hears = some true ∧ (playing.slotAt 4).state = .playing) :=
  ⟨⟨talking_muteLaw, by decide +kernel⟩, ⟨talking_muteLaw, by decide +kernel⟩, ⟨talking_muteLaw, by decide +kernel⟩,
    by decide +kernel⟩

/-- `spoken` with the coaching supervisor's microphone and the live whisper gain changed. -/
def coachedLouder : State :=
  ((spoken.modMix 9 (fun m => { m with processed := 20000 })).modPos 2 (fun x =>
    { x with relation := x.relation.map (fun r => { r with gain := some 16383 }) })).modPos 9 (fun x =>
    { x with relation := x.relation.map (fun r => { r with gain := some 16383 }) })

theorem spoken_slots : (∀ i, i < 4 → (spoken.slotAt i).kind = some .programme ∧ (spoken.slotAt i).target = some i) ∧
    (∀ i, i < 24 → (spoken.slotAt i).state = .idle) := by decide +kernel
theorem spoken_slotLaw : SlotLaw spoken :=
  ⟨spoken_slots.1, fun i _ h' h => absurd (spoken_slots.2 i h') h, fun i hi _ _ _ _ h => absurd (spoken_slots.2 i hi) h.1,
    List.nodup_nil, fun _ h => absurd h (List.not_mem_nil), fun h => absurd rfl h⟩

theorem witness_NoWhisperReachesATrunk :
    RelationLaw spoken ∧ RecordLaw spoken ∧ SlotLaw spoken ∧ WhisperAlike spoken coachedLouder ∧ 16 ≤ spoken.words ∧
    spoken.tmn.frames < 40 ∧ spoken ≠ coachedLouder ∧ spoken.tmn.state ≠ .locked := by
  have h : ∀ p, p < 16 →
      { coachedLouder.posAt p with relation := none } = { spoken.posAt p with relation := none } ∧
      (coachedLouder.posAt p).relation.map (fun r => { r with gain := none }) =
        (spoken.posAt p).relation.map (fun r => { r with gain := none }) ∧
      ((coachedLouder.mixAt p).processed = (spoken.mixAt p).processed ∨
        (spoken.posAt p).relation.any (fun r => r.form == .monitoring && r.mode != .barge) = true) := by decide +kernel
  refine ⟨talking_relationLaw, talking_recordLaw, spoken_slotLaw, ⟨by decide +kernel, by decide +kernel, by decide +kernel, fun p hp => ⟨(h p hp).1, (h p hp).2.1, fun hb => ?_⟩,
    by decide +kernel, fun i hi => ?_⟩, by decide +kernel, by decide +kernel, by decide +kernel, by decide +kernel⟩
  · obtain hq | hq := (h p hp).2.2
    · exact hq
    · cases hr : (spoken.posAt p).relation with
      | none => rw [hr] at hq; exact absurd hq (by simp)
      | some r =>
        rw [hr] at hq
        simp only [Option.any_some, Bool.and_eq_true, beq_iff_eq, bne_iff_ne] at hq
        exact absurd (hb r hr hq.1) hq.2
  · exact ⟨rfl, rfl, rfl, fun _ => rfl⟩

/-! The sample law, the cancellers, the pool, the headset links and the levels. -/

theorem witness_SampleLawDecodesAndEncodes : (0 : Byte) ≠ 128 ∧ (255 : Byte) ≠ 128 ∧ (-32768 : Int) ≤ -32768 ∧
    (32767 : Int) ≤ 32767 := by decide +kernel

theorem witness_ArrivalsAreCancelledAndJudged :
    linked.words = (6 : Fin 16).val ∧ wordGood (word (-32768) false) = true ∧ (linked.linkAt 6).state = .up ∧
    inboundButton (word (-32768) false) = (linked.linkAt 6).stable := by decide +kernel

/-- `linked` with sound in the history. -/
def loud : State := linked.modEc 6 (fun c => { c with history := 1000 :: List.replicate 255 0 })

theorem loud_pool : (∀ p, p < 16 → loud.segsOf p = if p = 6 then [0] else []) ∧
    (∀ g, g < 64 → loud.segAt g = { owner := if g = 0 then some 6 else none, coeffs := List.replicate 32 0 }) ∧
    loud.pool.short = [] := by decide +kernel
theorem loud_poolLaw : PoolLaw loud := by
  refine ⟨fun p hp => by rw [loud_pool.1 p hp]; split <;> simp, fun g hg => ⟨fun p => ?_, fun _ => ?_⟩, fun p hp => ?_⟩
  · rw [loud_pool.2.1 g hg]
    by_cases hp : p < 16
    · rw [loud_pool.1 p hp]; by_cases h6 : p = 6 <;> by_cases h0 : g = 0 <;> simp [h6, h0, hp, eq_comm]
    · by_cases h0 : g = 0 <;> simp [h0, hp]; omega
  · rw [loud_pool.2.1 g hg]
  · rw [loud_pool.2.2] at hp; simp at hp

/-- The cancellers of `loud` and of `summed`, but for the power sum, the window and the request. -/
theorem canceller_ranges (s : State) (hs : ∀ p, p < 16 → { s.ecAt p with power := 0, window := 0, request := 4 } =
      if p = 6 then { Canceller.reset with history := 1000 :: List.replicate 255 0 } else Canceller.reset)
    (hw : ∀ p, p < 16 → (s.ecAt p).window ≤ 256 ∧ (s.ecAt p).request ≤ 8)
    (hg : ∀ g, g < 64 → (s.segAt g).coeffs = List.replicate 32 0) : CancellerLaw s := by
  refine ⟨fun p hp => ?_, fun g h => ?_⟩
  · have h := hs p hp
    have hx : ∀ x ∈ (s.ecAt p).history, x = 0 ∨ x = 1000 := by
      intro x hx
      have hh : (s.ecAt p).history = (if p = 6 then 1000 :: List.replicate 255 0 else Canceller.reset.history) := by
        have := congrArg Canceller.history h; simp only at this; rw [this]; split <;> rfl
      rw [hh] at hx
      split at hx
      · rcases List.mem_cons.1 hx with rfl | hx
        · exact .inr rfl
        · exact .inl (List.eq_of_mem_replicate hx)
      · exact .inl (reset_history x hx)
    have hc : ({ s.ecAt p with power := 0, window := 0, request := 4 } : Canceller).history.length = 256 ∧
        Fits16 ({ s.ecAt p with power := 0, window := 0, request := 4 } : Canceller).gone ∧
        ({ s.ecAt p with power := 0, window := 0, request := 4 } : Canceller).hangover ≤ 240 ∧
        1 ≤ ({ s.ecAt p with power := 0, window := 0, request := 4 } : Canceller).step ∧
        ({ s.ecAt p with power := 0, window := 0, request := 4 } : Canceller).step ≤ 32 ∧
        ({ s.ecAt p with power := 0, window := 0, request := 4 } : Canceller).shift ≤ 4 := by
      rw [h]; split <;> exact ⟨by decide +kernel, ⟨by decide, by decide⟩, by decide, by decide, by decide, by decide⟩
    exact ⟨hc.1, fun x h => by rcases hx x h with rfl | rfl <;> exact ⟨by decide, by decide⟩, hc.2.1, hc.2.2.1,
      hc.2.2.2.1, hc.2.2.2.2.1, hc.2.2.2.2.2, (hw p hp).2, (hw p hp).1⟩
  · rw [hg g h]; exact ⟨by decide, fun a ha => by rw [free_coeffs a ha]; decide⟩
theorem loud_cancellerLaw : CancellerLaw loud :=
  canceller_ranges loud (by decide +kernel) (by decide +kernel) (by decide +kernel)

theorem witness_AdaptingArrivalsMoveEveryTap :
    PoolLaw loud ∧ (loud.segsOf 6).length ≤ 8 ∧ CancellerLaw loud ∧ loud.words = (6 : Fin 16).val ∧
    wordGood (word 5 false) = true ∧ (loud.linkAt 6).state = .up ∧
    inboundButton (word 5 false) = (loud.linkAt 6).stable ∧
    (∃ t, exec (.headsetWordArrival 6 (word 5 false)) loud = .next t ∧ (t.ecAt 6).state = .adapting) :=
  ⟨loud_poolLaw, by decide +kernel, loud_cancellerLaw, by decide +kernel, by decide +kernel, by decide +kernel,
    by decide +kernel, _, rfl, by decide +kernel⟩

/-- `loud` with its request granted and its power sum running over 32 values. -/
def summed : State := loud.modEc 6 (fun c => { c with request := 1, window := 32, power := 1000000 }) |>.setWords 16
theorem summed_cancellerLaw : CancellerLaw summed :=
  canceller_ranges summed (by decide +kernel) (by decide +kernel) (by decide +kernel)
theorem summed_shortfallLaw : ShortfallLaw summed := by
  refine ⟨by decide +kernel, by decide +kernel, ?_⟩; decide +kernel
theorem summed_powerLaw : PowerLaw summed := by unfold PowerLaw; decide +kernel

theorem witness_PowerSumStaysExact :
    (let c := { Canceller.reset with window := 256 }
     c.history.length = 256 ∧ c.window = 256 ∧ c.power = powerOf (c.history.take 256)) ∧
    (Canceller.reset.history.length = 256 ∧ Canceller.reset.window ≠ 1) ∧
    ∃ t, (PoolLaw summed ∧ ShortfallLaw summed ∧ CancellerLaw summed) ∧ PowerLaw summed ∧ step summed = .next t :=
  ⟨by decide +kernel, by decide +kernel, _, ⟨loud_poolLaw, summed_shortfallLaw, summed_cancellerLaw⟩, summed_powerLaw, rfl⟩

theorem witness_CancellerCommandsStoreAndZero : linked.heeds .st4 .maint := heeded (by decide +kernel)

/-- `loud` with every other segment at P7. -/
def scarce : State :=
  (List.range 63).foldl (fun s g => s.modSeg (g + 1) (fun x => { x with owner := some 7 }))
    (loud.modSegs 7 (fun _ => (List.range 63).map (· + 1)))

theorem scarce_pool : (∀ p, p < 16 → scarce.segsOf p =
      if p = 6 then [0] else if p = 7 then (List.range 63).map (· + 1) else []) ∧
    (∀ g, g < 64 → (scarce.segAt g).owner = if g = 0 then some 6 else some 7) ∧ scarce.pool.short = [] := by
  decide +kernel
theorem scarce_poolLaw : PoolLaw scarce := by
  refine ⟨fun p hp => ?_, fun g hg => ⟨fun p => ?_, fun h => ?_⟩, fun p hp => ?_⟩
  · rw [scarce_pool.1 p hp]
    split
    · simp
    · split
      · exact ⟨by decide +kernel, by simp; omega⟩
      · simp
  · rw [scarce_pool.2.1 g hg]
    by_cases hp : p < 16
    · rw [scarce_pool.1 p hp]
      by_cases h6 : p = 6
      · by_cases h0 : g = 0 <;> simp [h6, h0]
      · by_cases h7 : p = 7
        · by_cases h0 : g = 0
          · simp [h7, h0]
          · simp [h0, h7]
            exact ⟨g - 1, by omega, by omega⟩
        · by_cases h0 : g = 0 <;> simp [h6, h7, h0, eq_comm]
    · by_cases h0 : g = 0 <;> simp [h0, hp] <;> omega
  · rw [scarce_pool.2.1 g hg] at h; split at h <;> simp at h
  · rw [scarce_pool.2.2] at hp; simp at hp

theorem witness_RaisedAndLoweredRequestsMoveSegments :
    (ready.pool.short = [] ∧ ∀ g, g < 64 → (scarce.segAt g).owner ≠ none) ∧
    (let v (n : Nat) := (loud.setShort [6, 7]).modEc 6 (fun c => { c with request := n })
     (v 3).pool.short = 6 :: [7] ∧ ((v 3).segAt 1).owner = none ∧ (∀ j, j < 1 → ((v 3).segAt j).owner ≠ none) ∧
       2 < ((v 3).ecAt 6).request ∧ ((v 2).ecAt 6).request ≤ 2) ∧
    (PoolLaw ready ∧ (ready.ecAt 0).request = 4 ∧ (ready.linkAt 0).state ≠ .up) ∧
    (PoolLaw loud ∧ 8 ≠ (loud.ecAt 6).request ∧ (loud.linkAt 6).state = .up ∧ (loud.segsOf 6).length < 8 ∧
      0 ≠ (loud.ecAt 6).request ∧ 0 ≤ (loud.segsOf 6).length ∧ loud.pool.short.erase 6 = [] ∧
      (loud.segsOf 6).length + (((List.range 64).filter (fun g => (loud.segAt g).owner.isNone)).take 7).length = 8) ∧
    (PoolLaw scarce ∧ 8 ≠ (scarce.ecAt 6).request ∧ (scarce.linkAt 6).state = .up ∧
      (scarce.segsOf 6).length + (((List.range 64).filter (fun g => (scarce.segAt g).owner.isNone)).take 7).length < 8) :=
  ⟨by decide +kernel, by decide +kernel, ⟨ready_poolLaw, by decide +kernel⟩, ⟨loud_poolLaw, by decide +kernel⟩,
    scarce_poolLaw, by decide +kernel⟩

/-- R88: P6 gives up its segment and P7, at the head of the list, gets it. -/
theorem test_freed_segments_are_granted :
    let t := setRequest 6 0 ((scarce.modEc 7 (fun c => { c with request := 64 })).setShort [7])
    t.segsOf 6 = [] ∧ (t.segAt 0).owner = some 7 ∧ t.pool.short = [] ∧
      t.maintQ.records.map (fun n => (n.kind, n.position, n.value)) = [(.tapGranted, some 7, some 64)] := by decide +kernel

theorem witness_HeadsetWordsMoveTheLink :
    (∀ b, ones (word 7 b) % 2 = 0 ∧ inboundPresent (word 7 b) = true ∧ inboundButton (word 7 b) = b) ∧
    ones (word 7 false ^^^ 4) % 2 = 1 ∧ inboundPresent 0 = false ∧
    ((5 : Fin 16).val < linked.words ∧ (6 : Fin 16).val = linked.words ∧ (6 : Fin 16) < 7) ∧
    (let s := ready.setWords 6
     (s.linkAt 6).state = .down ∧ PoolLaw s ∧ s.words = (6 : Fin 16).val ∧ s.segsOf 6 = [] ∧ s.pool.short = []) ∧
    (let l (n : Nat) := (ready.modLink 6 (fun l => { l with state := .probing, goodRun := n })).linkAt 6
     (l 62).state = .probing ∧ (l 62).goodRun < 63 ∧ (l 63).state = .probing ∧ 63 ≤ (l 63).goodRun) ∧
    ((ready.ecAt 6).request ≤ 4 ∧ (scarce.segsOf 5).length + 0 < (scarce.ecAt 5).request) ∧
    (let l (n k : Nat) (b : Bool) := (linked.modLink 6 (fun l => { l with stable := b, change := n, badRun := k })).linkAt 6
     (l 158 6 false).state = .up ∧ false = (l 158 6 false).stable ∧ true ≠ (l 158 6 false).stable ∧
       (l 158 6 false).change < 159 ∧ (l 158 6 false).badRun < 7 ∧ (l 159 7 true).state = .up ∧
       159 ≤ (l 159 7 true).change ∧ false ≠ (l 159 7 true).stable ∧ true ≠ (l 159 7 false).stable ∧
       7 ≤ (l 159 7 true).badRun) :=
  ⟨by decide +kernel, by decide +kernel, by decide +kernel, by decide +kernel,
    ⟨by decide +kernel, ready_poolLaw, by decide +kernel⟩, by decide +kernel⟩

theorem witness_LevelOfAnInteger : 1 ≤ 1 ∧ 42949672960 ≤ 42949672960 ∧ 673672407040 ≤ 673672407040 := by decide

/-- P2 in a call, its link UP, at the end of a block with energy `e`, floor `f`, the given rise, whisper presence,
guard and fall. -/
def blockOf (e f rise presence guard fall : Nat) : State :=
  ((((talking.modLink 2 (fun l => { l with state := .up })).modLev 2 (fun l =>
    { l with energy := e, floor := f, rise := rise, guard := guard, fall := fall, adapting := 20 })).modMix 2 (fun m =>
    { m with presence := presence })).modTmn (fun t => { t with frames := 40 })).setWords 16

theorem blockOf_laws : ∀ s ∈ [blockOf 0 287 0 0 0 0, blockOf 1000000 0 6 19 1 38, blockOf 1000000 0 7 20 48 39,
    blockOf 0 0 0 0 0 0], ∀ p, p < 16 →
    let l := s.levAt p
    s.params = LevelParams.reset ∧ l.floor ≤ 287 ∧ l.rise ≤ 63 ∧ l.hang ≤ 10 ∧
      l.voice = (l.raw || decide (0 < l.hang)) ∧ l.atten ≤ 48 ∧ l.guard ≤ 48 ∧ l.fall ≤ 39 ∧ l.neighbours = [] := by
  decide +kernel

theorem witness_BlockEndsMeasureAndSlew :
    (LevelLaw ready ∧ ready.tmn.frames < 40) ∧
    (∀ s ∈ [blockOf 0 287 0 0 0 0, blockOf 1000000 0 6 19 1 38, blockOf 1000000 0 7 20 48 39, blockOf 0 0 0 0 0 0],
      LevelLaw s ∧ 40 ≤ s.tmn.frames ∧ 16 ≤ s.words ∧ s.tmn.running = false ∧ (s.posAt 2).call = .connected ∧ (s.posAt 2).ramp = 40 ∧
        (s.linkAt 2).state = .up) ∧
    (let s := (blockOf 0 287 0 0 0 0).modTmn (fun t => { t with running := true, grace := 1, elapsed := 19 })
     s.tmn.running = true ∧ 0 < s.tmn.grace ∧ 20 * s.tmn.grace ≤ s.tmn.elapsed + 1) ∧
    (0 : Fin 16).val = (timed (fun t => { t with frames := 40 })).words ∧
    (lvl 1 < 287 ∧ 0 ≤ lvl 1000001 ∧ 6 + 1 < 8 ∧ 8 ≤ 7 + 1) ∧
    (let m := (blockOf 1000000 0 7 20 48 39).mixAt 2
     20 ≤ m.presence ∧ (lvl (m.energy + 1) : Int) - 64 ≤ lvl 1000001 ∧ 1 + 8 ≤ lvl 1000001) ∧
    ((blockOf 1000000 0 6 19 1 38).mixAt 2).presence < 20 := by
  refine ⟨⟨ready_levelLaw, by decide +kernel⟩, fun s hs => ⟨?_, ?_⟩, by decide +kernel, by decide +kernel,
    by decide +kernel⟩
  · have h := blockOf_laws s hs
    refine ⟨by rw [(h 0 (by decide)).1]; decide, fun p hp => ?_⟩
    obtain ⟨h0, h1, h2, h3, h4, h5, h6, h7, h8⟩ := h p hp
    rw [h0, h8]
    exact ⟨h1, h2, h3, h4, h5, h6, h7, by simp⟩
  · revert s; decide +kernel

theorem witness_SetLevelsStoresAndLowers : linked.heeds .st4 .maint := heeded (by decide +kernel)

theorem witness_SetNeighboursReplacesTheList :
    linked.heeds .st4 .maint ∧ stationRole .st1 = some .call ∧ Role.call ≠ .maint ∧ ([5] : List Byte).length ≠ 2 ∧ ¬ ([5, 5] : List Byte).Nodup ∧
    (let list : List Byte := [5, 15, 0, 3]
     list.length = 4 ∧ ¬ (15 < 4 ∨ 4 < 4 ∨ (∃ b ∈ list, 15 < b.toNat ∨ b.toNat = 4) ∨ ¬ list.Nodup)) :=
  ⟨heeded (by decide +kernel), by decide +kernel⟩

/-! Clips, streams and programmes. -/

/-- `media` with clip 31 RETIRING and in use, and clip 40 fenced. -/
def retiring : State :=
  (media.modClip 31 (fun e => { e with state := .retiring, use := 1 })).modClip 40 (fun e => { e with fenced := true })

theorem witness_CatalogueCommandsChangeOneEntry :
    media.heeds .st4 .maint ∧
    (let fits (c cl start len loop : Nat) := c < 128 ∧ cl ≤ 2 ∧ start % 64 = 0 ∧ 4096 ≤ start ∧ 1 ≤ len ∧
       start + len ≤ 16777216 ∧ (cl = 0 → loop < len)
     let bound (s : State) (c : Nat) := ∃ k, k < 4 ∧ ((s.progAt k).clip = some c ∨ (s.progAt k).pending = .clip c)
     ¬ fits 127 0 16777152 65 0 ∧ fits 127 0 16777152 64 63 ∧ ¬ fits 0 0 4096 64 64 ∧ fits 31 2 4096 64 64 ∧
       (retiring.clipAt 31).state = .retiring ∧ 0 < (retiring.clipAt 31).use ∧ bound media 30 ∧
       (retiring.clipAt 40).fenced = true ∧ ¬ bound media 127 ∧ (media.clipAt 127).state ≠ .retiring ∧
       (media.clipAt 127).use = 0 ∧ (media.clipAt 127).fenced = false ∧ (media.clipAt 127).state ≠ .active ∧
       (media.clipAt 30).state = .active ∧ (media.clipAt 40).state = .active ∧ ¬ bound media 40 ∧
       (media.clipAt 40).use = 0 ∧
       0 < ((media.modClip 40 (fun e => { e with use := 1 })).clipAt 40).use) :=
  ⟨heeded (by decide +kernel), by decide +kernel⟩

theorem witness_ProgrammeChangesWaitForTheSlot :
    media.heeds .st4 .maint ∧ playing.heeds .st4 .maint ∧ (media.slotAt 1).state = .idle ∧
    (playing.slotAt 1).state ≠ .idle ∧ (media.clipAt 41).state ≠ .active ∧
    (media.clipAt 20).body = some (clipBody .caller 49152 100 0) ∧
    ((media.modClip 31 (fun e => { e with fenced := true })).clipAt 31).fenced = true ∧
    (∀ c ∈ [30, 31], (media.clipAt c).state = .active ∧ (media.clipAt c).body.map (·.cls) = some .music ∧
      (media.clipAt c).fenced = false) ∧ (playing.progAt 1).clip = some 30 ∧ (playing.progAt 1).clip ≠ some 31 ∧
    (media.progAt 3).listeners = 0 ∧ (media.slotAt 3).state = .idle ∧ 0 < (media.progAt 1).listeners :=
  ⟨heeded (by decide +kernel), heeded (by decide +kernel), by decide +kernel⟩

/-- Every general slot plays for P0. -/
def full : State :=
  (List.range 20).foldl (fun s i => s.modSlot (i + 4) (fun x =>
    { x with state := .priming, kind := some .caller, target := some 0, clip := some 20 })) media

theorem witness_CallerPromptsStartAndStop :
    media.heeds .st1 .call ∧ full.heeds .st1 .call ∧ (media.posAt 0).call = .free ∧ (media.posAt 5).call ≠ .free ∧
    (media.clipAt 21).state ≠ .active ∧ (media.clipAt 20).state = .active ∧
    (media.clipAt 20).body = some (clipBody .caller 49152 100 0) ∧ (media.clipAt 20).fenced = false ∧
    (media.clipAt 40).body.map (·.cls) = some .whisper ∧
    ((media.modClip 20 (fun e => { e with fenced := true })).clipAt 20).fenced = true ∧
    playing.streamOf .caller 5 = some 4 ∧ full.streamOf .caller 2 = none ∧
    (∀ j, j < 24 → 4 ≤ j → (full.slotAt j).state ≠ .idle) ∧ media.streamOf .caller 5 = none ∧
    (media.slotAt 4).state = .idle ∧ (playing.slotAt 4).state ≠ .stopping ∧
    (let s := playing.modSlot 4 (fun x => { x with state := .stopping })
     s.streamOf .caller 5 = some 4 ∧ (s.slotAt 4).state = .stopping) :=
  ⟨heeded (by decide +kernel), heeded (by decide +kernel), by decide +kernel⟩

/-- `playing` with slot `i` as given. -/
def slotOf (i : Nat) (f : Slot → Slot) : State := playing.modSlot i f

theorem witness_SlotsYieldOneSampleAFrame :
    (playing.tmn.state ≠ .locked ∧ playing.tmn.frames < 40 ∧ (playing.slotAt 23).state = .idle ∧
      (playing.slotAt 4).state = .playing ∧ (playing.slotAt 4).buffer = [5, 6, 7] ∧
      (playing.slotAt 5).state = .playing ∧ (playing.slotAt 5).buffer = [] ∧ (playing.slotAt 5).underrun = false) ∧
    ((slotOf 5 (fun x => { x with underrun := true })).slotAt 5).underrun = true ∧
    ((slotOf 4 (fun x => { x with state := .priming })).slotAt 4).state = .priming ∧
    (let x := (slotOf 4 (fun x => { x with state := .ending })).slotAt 4
     x.state = .ending ∧ x.buffer = 5 :: 6 :: [7]) ∧
    (let x (begun : Bool) (b : List Int) := (slotOf 4 (fun x =>
       { x with state := .stopping, begun := begun, dir := some .falling, ramp := 2, buffer := b })).slotAt 4
     (x false []).state = .stopping ∧ (x false []).begun = false ∧ 1 < (x false []).ramp ∧ (x true []).begun = true ∧
       (x true []).dir = some .falling ∧ (x true []).buffer.length ≠ 1 ∧ (x true [9]).buffer.length = 1 ∧
       0 < (x true [9]).left) ∧
    (let x (n : Nat) := (slotOf 1 (fun x => { x with ramp := n })).slotAt 1
     ∀ n ∈ [0, 38, 39], (x n).state = .stopping ∧ (x n).begun = true ∧ (x n).dir = some .rising ∧ (x n).ramp < 40 ∧
       (x n).buffer.length ≠ 1) := by decide +kernel

/-- A STOPPING stream at the end of its fade. -/
def faded (x : Slot) : Slot :=
  { x with state := .stopping, dir := some .falling, cause := some .stopped, begun := true, ramp := 1 }
/-- A whisper that waits for clip 40. -/
def waiting : WhisperItem := { clip := 40, gain := 1, admission := .append }

theorem witness_SlotsReachIdleInOrder :
    (let s := playing.setWords 16
     s.tmn.state ≠ .locked ∧ 16 ≤ s.words ∧ s.tmn.frames < 40) ∧
    ((playing.slotAt 23).state = .idle ∧ (playing.slotAt 4).state = .playing ∧ (playing.slotAt 4).buffer = [5, 6, 7] ∧
      (playing.slotAt 5).state = .playing ∧ (playing.slotAt 5).buffer = [] ∧ (playing.slotAt 5).underrun = false ∧
      ((slotOf 5 (fun x => { x with underrun := true })).slotAt 5).underrun = true) ∧
    (let x (b : List Int) := (slotOf 4 (fun x => { x with state := .ending, buffer := b })).slotAt 4
     (x [5]).clip = some 20 ∧ (x [5]).state = .ending ∧ (x [5]).buffer.length ≤ 1 ∧ (x [5, 6]).buffer = 5 :: 6 :: []) ∧
    (let x (d : RampDir) (b : Bool) (n : Nat) (l : List Int) := (slotOf 4 (fun x =>
       { faded x with dir := some d, begun := b, ramp := n, buffer := l, left := 0 })).slotAt 4
     (∀ d ∈ [RampDir.falling, .rising], (x d true 9 [1]).state = .stopping ∧ (x d true 9 [1]).dir = some d ∧
       (x d true 9 [1]).ramp ≤ 40 ∧ (x d true 9 [1]).begun = true ∧ (x d true 9 [1]).buffer.length = 1 ∧
       (x d true 9 [1]).left = 0) ∧
     (x .falling false 1 []).ramp - 1 = 0 ∧ 0 < (x .falling false 2 []).ramp - 1 ∧ (x .falling false 2 []).begun = false ∧
       min 40 ((x .rising true 38 [1, 2]).ramp + 1) < 40 ∧ min 40 ((x .rising true 39 [1, 2]).ramp + 1) = 40) ∧
    ((playing.slotAt 4).kind = some .caller ∧ (playing.slotAt 4).clip = some 20 ∧ (playing.slotAt 5).kind = some .whisper ∧
      (playing.slotAt 5).target = some 2 ∧ (playing.slotAt 5).clip = some 40) ∧
    (let s (x : PendingClip) := playing.modProg 1 (fun g => { g with pending := x })
     (playing.slotAt 1).kind = some .programme ∧ (playing.slotAt 1).clip = some 30 ∧
       ((s (.clip 31)).progAt 1).pending = .clip 31 ∧ ((s .none).progAt 1).pending = .none ∧
       0 < (playing.progAt 1).listeners ∧ ((playing.modProg 1 (fun g => { g with listeners := 0 })).progAt 1).listeners = 0 ∧
       (playing.clipAt 31).body = some (clipBody .music 32768 3000 0)) ∧
    (let usable (s : State) (it : WhisperItem) := (s.clipAt it.clip).state = .active ∧
       (s.clipAt it.clip).body.map (·.cls) = some .whisper ∧ (s.clipAt it.clip).fenced = false
     let s (l : List WhisperItem) := (playing.setWait [2]).setQueue 2 l
     let gone : WhisperItem := { waiting with clip := 41 }
     (s []).waitList = 2 :: [] ∧ (s [gone, waiting]).queueAt 2 = [gone] ++ waiting :: [] ∧
       ¬ usable (s [gone, waiting]) gone ∧ usable (s [gone, waiting]) waiting ∧ playing.waitList = []) ∧
    (let s := media.setQueue 2 [waiting]
     s.queueAt 2 ≠ [] ∧ s.streamOf .whisper 2 = none ∧ 2 ∉ s.waitList ∧ (s.slotAt 4).state = .idle) ∧
    (let s := crowded.setQueue 5 [waiting]
     s.queueAt 5 ≠ [] ∧ s.streamOf .whisper 5 = none ∧ 5 ∉ s.waitList ∧
       ∀ j, j < 24 → 4 ≤ j → (s.slotAt j).state ≠ .idle) := by
  refine ⟨?_, ?_, ?_, ?_, ?_, ?_, ?_, ?_, ?_⟩ <;> decide +kernel

/-- R38: a slot given to a position whose only item is not usable passes on, with WHISPER_ENDED cause UNAVAILABLE. -/
theorem test_unavailable_items :
    let t := serveWaiting 4 [2, 5] (((playing.modSlot 4 (fun _ => Slot.fresh 4)).setQueue 2 [{ waiting with clip := 41 }]).setQueue 5
      [waiting])
    t.waitList = [] ∧ (t.slotAt 4).target = some 5 ∧ (t.slotAt 4).clip = some 40 ∧
      t.floorQ.records.map (fun n => (n.kind, n.position, n.subject, n.cause)) =
        [(.whisperEnded, some 2, some 41, some .unavailable)] := by decide +kernel

/-! The store link. -/

/-- `playing` with a fetch of `n` bytes for slot `i`, which holds the link. -/
def fetching (i n : Nat) (live : Bool) (f : Slot → Slot) : State :=
  (slotOf i f).modStore (fun u =>
    { u with activity := .fetch, fetch := some { slot := i, addr := 8192, count := n, live := live, clock := 0 } })

theorem witness_FetchesAreGrantedInTurn :
    (let asks (s : State) (i : Nat) := ((s.slotAt i).state = .priming ∨ (s.slotAt i).state = .playing ∨
       (s.slotAt i).state = .stopping) ∧ (s.slotAt i).buffer.length ≤ 192 ∧ 0 < (s.slotAt i).left
     let after (last i : Nat) := (i + 48 - (last + 1)) % 24
     (∀ a ∈ [LinkActivity.idle, .eraseSuspended],
       (playing.modStore (fun u => { u with activity := a })).phase ≠ some .waitReady) ∧
     playing.store.read = none ∧ playing.store.lastServed = 23 ∧ asks playing 1 ∧
     (∀ j, j < 24 → asks playing j → after 23 1 ≤ after 23 j) ∧
     ((slotOf 4 (fun x => { x with buffer := List.replicate 192 0, left := 1 })).slotAt 4).buffer.length ≤ 192 ∧
     (∀ j, j < 24 → ¬ asks ready j)) ∧
    (storing .erase 0 .waitReady .idle).phase = some .waitReady ∧ (reading true ready).store.read ≠ none ∧
    (fetching 4 36 true id).store.activity = .fetch := by decide +kernel

theorem witness_ArrivalsFillTheSlot :
    (let s := fetching 4 36 false id
     s.store.fetch.map (fun f => (f.slot, f.count, f.live)) = some (4, 36, false)) ∧
    (let s := fetching 4 36 true (fun x => { x with left := 37 })
     s.store.fetch.map (fun f => (f.slot, f.count, f.live)) = some (4, 36, true) ∧ 36 < (s.slotAt 4).left) ∧
    (let s := fetching 5 64 true (fun x => { x with left := 64 })
     s.store.fetch.map (·.count) = some 64 ∧ (s.slotAt 5).left ≤ 64 ∧ (s.slotAt 5).kind = some .whisper) ∧
    (let x (n : Nat) := (fetching 4 36 true (fun x => { x with repeats := some n })).slotAt 4
     (x 0).left ≤ 36 ∧ (x 0).kind = some .caller ∧ (x 0).repeats = some 0 ∧ (x 14).repeats = some (13 + 1) ∧
       (x 14).clip = some 20) ∧ (playing.clipAt 20).body = some (clipBody .caller 49152 100 0) ∧
    (let s (p : PendingClip) := (fetching 1 64 true id).modProg 1 (fun g => { g with pending := p })
     ((s .empty).slotAt 1).left ≤ 64 ∧ ((s .empty).slotAt 1).kind = some .programme ∧
       ((s .empty).progAt 1).pending = .empty ∧ ((s .empty).slotAt 1).clip = some 30 ∧
       ((s .empty).clipAt 30).body = some (clipBody .music 4096 24000 8000) ∧ ((s .none).progAt 1).pending = .none ∧
       ((s (.clip 31)).progAt 1).pending = .clip 31 ∧
       ((s (.clip 31)).clipAt 31).body = some (clipBody .music 32768 3000 0)) := by decide +kernel

theorem witness_StoreOperationsAreAccepted :
    media.heeds .st4 .maint ∧ (storing .write 0 .notStarted .idle).heeds .st4 .maint ∧
    (storing .write 0 .notStarted .idle).store.op ≠ none ∧ media.store.op = none ∧
    (let meets (e : Clip) (start size : Nat) : Bool :=
       match e.body with
       | some b => decide (b.start < start + size ∧ start < b.start + b.length)
       | none => false
     (meets (media.clipAt 30) 4096 4096 = true ∧ (media.progAt 1).clip = some 30) ∧
       (meets (media.clipAt 30) 28095 1 = true ∧ meets (media.clipAt 30) 28096 32 = false) ∧
       (∀ c, c < 128 → meets (media.clipAt c) (4096 * 4095) 4096 = false) ∧
       (∀ c, c < 128 → meets (media.clipAt c) 28096 32 = false)) ∧
    (¬ (1 = 0 ∨ 32 < 1 ∨ 28095 < 4096 ∨ 256 < 28095 % 256 + 1) ∧
      ¬ (32 = 0 ∨ 32 < 32 ∨ 28096 < 4096 ∨ 256 < 28096 % 256 + 32)) :=
  ⟨heeded (by decide +kernel), heeded (by decide +kernel), by decide +kernel⟩

theorem witness_OperationStepsRunInOrder :
    (∀ k step, StoreLinkLaw (storing k step .notStarted .idle) ∧ StoreLinkLaw (storing k step .waitReady .idle) ∧
      StoreLinkLaw (storing k step .erasing .eraseRunning) ∧ StoreLinkLaw (storing k step .suspended .eraseSuspended) ∧
      StoreLinkLaw (storing k step .suspending .eraseSuspended) ∧
      StoreLinkLaw (storing k step .programming .program)) ∧
    (∀ k ∈ [OpKind.erase, .write, .save], ∀ step ∈ [0, 6, 7], (storing k step .erasing .eraseRunning).store.op.map
      (fun o => (o.kind, o.step, o.phase)) = some (k, step, .erasing)) ∧
    (let asks (s : State) (i : Nat) := ((s.slotAt i).state = .priming ∨ (s.slotAt i).state = .playing ∨
       (s.slotAt i).state = .stopping) ∧ (s.slotAt i).buffer.length ≤ 192 ∧ 0 < (s.slotAt i).left
     ∀ s ∈ [storing .save 1 .notStarted .idle, storing .erase 0 .suspended .eraseSuspended],
       s.store.read = none ∧ ∀ j, j < 24 → ¬ asks s j) :=
  ⟨fun _ _ => ⟨⟨rfl, rfl, .inr (.inl rfl)⟩, ⟨rfl, rfl, .inr (.inr rfl)⟩, ⟨rfl, rfl, rfl⟩, ⟨rfl, rfl, .inr rfl⟩,
    ⟨rfl, rfl, .inl rfl⟩, rfl, rfl, rfl⟩, by decide +kernel⟩

theorem witness_ReadsAreServedAndAnswered :
    media.heeds .st4 .maint ∧ 16777184 + 32 ≤ 16777216 ∧ 16777216 < 16777185 + 32 ∧
    (storing .write 0 .notStarted .idle).store.op.map (·.kind) = some .write ∧
    (storing .erase 0 .erasing .eraseRunning).store.op.map (·.kind) = some .erase ∧
    (let s := reading false (storing .erase 0 .erasing .eraseRunning)
     s.store.read.map (·.holding) = some false ∧ s.store.activity = .eraseRunning ∧ s.phase ≠ some .waitReady) ∧
    (reading true ready).store.read.map (fun r => (r.holding, r.count)) = some (true, 2) ∧
    (reading false (storing .erase 0 .waitReady .idle)).phase = some .waitReady ∧ ready.store.read = none :=
  ⟨heeded (by decide +kernel), by decide +kernel⟩

/-! The directory, timing, what goes out, and the reads. -/

theorem media_catalogue :
    (∀ c, c < 128 → (media.clipAt c).use = media.playing c ∧
      ((media.clipAt c).state = .empty ↔ (media.clipAt c).body = none) ∧
      ((media.clipAt c).state = .empty → (media.clipAt c).use = 0) ∧
      ((media.clipAt c).state = .retiring → 0 < (media.clipAt c).use) ∧
      (media.clipAt c).body.all (fun b => decide (clipFieldsFit b.cls b.start b.length (b.loop.getD 0) = true ∧
        (b.loop.isSome ↔ b.cls = .music))) = true) ∧
    (∀ k, k < 4 → media.progAt k =
      if k = 1 then { clip := some 30, pending := .empty, listeners := 1 } else Programme.reset) ∧
    (media.clipAt 30).state = .active ∧ (media.clipAt 30).body.map (·.cls) = some .music := by decide +kernel

theorem witness_SavedDirectoriesAreLoadedAgain :
    CatalogueLaw media ∧
    (let u := afterAll [.startupStoreReady, .startupStoreReady] State.reset
     u.store.startup.map (·.phase) = some .reading ∧
       (∀ c, c < 128 → u.clipAt c = { state := .empty, body := none, use := 0, fenced := false }) ∧
       (∀ k, k < 4 → (u.progAt k).clip = none ∧ (u.progAt k).pending = .empty)) := by
  refine ⟨⟨fun c hc => ?_, fun k hk c h => ?_⟩, by decide +kernel⟩
  · have h := media_catalogue.1 c hc
    exact ⟨h.1, h.2.1, h.2.2.1, h.2.2.2.1, of_all h.2.2.2.2⟩
  · rw [media_catalogue.2.1 k hk] at h
    split at h
    · simp only [Programme.binds, Bool.or_eq_true, beq_iff_eq, Option.some.injEq, reduceCtorEq, or_false] at h
      subst h
      exact ⟨by decide, media_catalogue.2.2⟩
    · simp [Programme.reset, Programme.binds] at h

theorem witness_StartUpLoadsEndInReady :
    (let good := [84, 71, 68, 82] ++ put2 6 ++ put2 (byteSum table86) ++ table86 ++ List.replicate 1464 255
     let count (dir : List Byte) := 256 * (dir.getD 4 0).toNat + (dir.getD 5 0).toNat
     let valid (dir : List Byte) := dir.take 4 = [0x54, 0x47, 0x44, 0x52] ∧ count dir ≤ 128 ∧
       (((dir.drop 8).take (12 * count dir)).map (·.toNat)).sum % 65536 =
         256 * (dir.getD 6 0).toNat + (dir.getD 7 0).toNat
     good.length = 1544 ∧ valid good ∧ (List.replicate 1544 (255 : Byte)).length = 1544 ∧
       ¬ valid (List.replicate 1544 255)) ∧
    State.reset.store.startup.map (·.phase) = some .waitReady ∧
    (after .startupStoreReady State.reset).store.startup.map (·.phase) = some .abandoned ∧
    (afterAll [.startupStoreReady, .startupStoreReady] State.reset).store.startup.map (·.phase) = some .reading ∧
    (∀ c, c < 128 → State.reset.clipAt c = { state := .empty, body := none, use := 0, fenced := false }) ∧
    (∀ k, k < 4 → (State.reset.progAt k).clip = none ∧ (State.reset.progAt k).pending = .empty) ∧
    ready.store.startup.map (·.phase) = none := by decide +kernel

theorem witness_SyncsMoveTheTimingState :
    (∀ n ∈ [39, 40], let t := (timed (fun t => { t with state := .locked, count := 16, syncTicks := 2044, frames := n })).tmn
     t.force = false ∧ t.state = .locked ∧ t.syncTicks = 2044 ∧ t.frames = n) ∧
    (timed (fun t => { t with force := true })).tmn.force = true ∧ ready.tmn.force = false ∧ ready.tmn.state = .freeRun ∧
    (let t (n k f : Nat) := (timed (fun t => { t with state := .acquiring, count := k, syncTicks := n, frameTimer := f })).tmn
     (t 2043 1 0).state = .acquiring ∧ (t 2043 1 0).syncTicks < 2044 ∧ 2052 < (t 2053 1 0).syncTicks ∧
       2044 ≤ (t 2044 14 0).syncTicks ∧ (t 2052 14 0).syncTicks ≤ 2052 ∧ (t 2044 14 0).count < 15 ∧
       15 ≤ (t 2052 15 1023).count ∧ (t 2052 15 1023).frameTimer < 1024 ∧ 1024 ≤ (t 2052 15 1024).frameTimer) ∧
    (let t (n : Nat) := (timed (fun t => { t with state := .locked, count := 16, syncTicks := n })).tmn
     (t 2043).state = .locked ∧ (t 2043).syncTicks < 2044 ∧ 2111 < (t 2112).syncTicks ∧ 2044 ≤ (t 2044).syncTicks ∧
       (t 2111).syncTicks ≤ 2111) := by decide +kernel

theorem witness_GraceForceAndAcknowledge :
    ready.heeds .st4 .maint ∧ stationRole .st2 = some .call ∧ Role.call ≠ .floor ∧ Role.call ≠ .maint ∧
    stationRole .st3 = some .floor ∧ ready.tmn.running = false ∧
    ready.tmn.failFlag = false ∧ (timed (fun t => { t with failFlag := true })).tmn.failFlag = true ∧
    (let t := (timed (fun t => { t with running := true, elapsed := 5100 })).tmn
     t.running = true ∧ 20 * min 255 65535 ≤ t.elapsed) ∧
    (timed (fun t => { t with running := true, elapsed := 19 })).tmn.elapsed < 20 * min 255 1 :=
  ⟨heeded (by decide +kernel), by decide +kernel⟩

theorem witness_FramesSendBytesAndWords :
    RecordLaw spoken ∧ SendLaw spoken ∧ spoken.tmn.state ≠ .locked ∧ 16 ≤ spoken.words ∧ spoken.tmn.frames < 40 ∧
    (spoken.posAt 2).binding.map (·.tx) = some 4 ∧ spoken.resetHeld = false ∧
    (let s := spoken.modTmn (fun t =>
       { t with state := .locked, boundary := some (.line (Vector.replicate 32 0)), frames := 39 })
     RecordLaw s ∧ SendLaw s ∧ s.tmn.boundary.isSome = true ∧ s.tmn.frames < 40) :=
  ⟨talking_recordLaw, talking_sendLaw, by decide +kernel, by decide +kernel, by decide +kernel, by decide +kernel, by decide +kernel,
    talking_recordLaw, talking_sendLaw, by decide +kernel⟩

theorem witness_ReadsReportAndFetchesRemove : stationRole .st3 = some .floor ∧ NoticeLaw ready :=
  ⟨by decide +kernel, ready_noticeLaw⟩

end Sys2Proof.Tests
end

section
/-! SUPPORT. How one step can move the calls: the position records, and the listener counts that follow them. Every
command, event and tick is a chain of a few kinds of move, so that a law of the positions is checked against these
kinds alone (chapters 1 and 2). -/

namespace Sys2Proof.Machine

/-! ### Readings of one entry -/

theorem posAt_congr {s t : State} (h : t.pos = s.pos) (p : Nat) : t.posAt p = s.posAt p := by
  simp [State.posAt, h]

theorem progAt_congr {s t : State} (h : t.prog = s.prog) (k : Nat) : t.progAt k = s.progAt k := by
  simp [State.progAt, h]

/-- The listener count of programme `k` (Table 7-6). -/
def State.listenersOf (s : State) (k : Nat) : Nat := (s.progAt k).listeners

/-! ### The kinds of move -/

/-- The position records and the listener counts stand. -/
def CallsStand (s t : State) : Prop := t.pos = s.pos ∧ ∀ k, t.listenersOf k = s.listenersOf k

theorem CallsStand.of_fields {s t : State} (hpos : t.pos = s.pos) (hprog : t.prog = s.prog) : CallsStand s t :=
  ⟨hpos, fun k => congrArg Programme.listeners (progAt_congr hprog k)⟩

theorem CallsStand.rfl' (s : State) : CallsStand s s := ⟨rfl, fun _ => rfl⟩

theorem CallsStand.trans {s t u : State} (h : CallsStand s t) (h' : CallsStand t u) : CallsStand s u :=
  ⟨h'.1.trans h.1, fun k => (h'.2 k).trans (h.2 k)⟩

/-- What one command may make of the record of `p` without its relation. -/
inductive RecordMove (s : State) (p : Nat) : Position → Prop
  /-- Mutes, ramp and gains change, and nothing of the call (R16 to R22). -/
  | tuned (y : Position) (hcall : y.call = (s.posAt p).call) (hbinding : y.binding = (s.posAt p).binding)
      (hhold : y.hold = (s.posAt p).hold) (hrelation : y.relation = (s.posAt p).relation)
      (hmute : (s.posAt p).effMute = ((s.posAt p).cmdMute || (s.posAt p).btnMute) →
        y.effMute = (y.cmdMute || y.btnMute))
      (hramp : (s.posAt p).ramp ≤ 40 → y.ramp ≤ 40) : RecordMove s p y
  /-- A FREE position that supervises nobody is bound to a send timeslot of its own (R5 to R7). -/
  | connected (b : Binding) (hcall : (s.posAt p).call = .free) (hrx : b.rx < 32) (htx : b.tx < 32)
      (hfree : s.txTaken p b.tx = false) (halone : s.agentOf p = none) :
      RecordMove s p { s.posAt p with call := .connected, binding := some b }
  /-- A call goes on, HELD on a programme or CONNECTED (R9 to R11). -/
  | switched (c : CallState) (h : Option Nat) (hcall : (s.posAt p).call ≠ .free) (hc : c ≠ .free)
      (hform : h.isSome ↔ c = .held) (hrange : ∀ k, h = some k → k < 4) :
      RecordMove s p { s.posAt p with call := c, hold := h }
  /-- A call that nobody monitors ends (R13). -/
  | freed (hcall : (s.posAt p).call ≠ .free) (halone : s.supervisorOf p = none) :
      RecordMove s p
        { s.posAt p with call := .free, binding := none, hold := none, cmdMute := false, btnMute := false,
                         effMute := false, ramp := 40 }

/-- The record of `p` has a hold programme exactly while it is HELD, and that programme counts a listener (R1, R132). -/
def State.HoldCounted (s : State) (p : Nat) : Prop :=
  ((s.posAt p).hold.isSome ↔ (s.posAt p).call = .held) ∧
    ∀ k, (s.posAt p).hold = some k → k < 4 ∧ 0 < s.listenersOf k

/-- The listener counts follow the record of `p` from `x` to `y` (R132). -/
def ListenersFollow (s t : State) (x y : Position) : Prop :=
  ∀ k, k < 4 →
    t.listenersOf k + (if x.hold = some k then 1 else 0) = s.listenersOf k + (if y.hold = some k then 1 else 0)

/-- One move of the calls. -/
inductive CallMove (s t : State) : Prop
  | stand (h : CallsStand s t)
  | record (p : Nat) (y : Position) (hp : p < 16) (hy : RecordMove s p y)
      (hpos : t.pos = (s.modPos p (fun _ => y)).pos)
      (hlisteners : s.HoldCounted p → ListenersFollow s t (s.posAt p) y)
  | unrelated (a b : Nat) (h : s.supervisorOf a = some b ∨ s.agentOf b = some a)
      (hpos : t.pos = (unrelate a b s).pos) (hlisteners : ∀ k, t.listenersOf k = s.listenersOf k)
  | related (sup a : Nat) (m : MonitorMode) (g : Option Nat) (hsup : sup < 16) (ha : a < 16) (hne : sup ≠ a)
      (hcallS : (s.posAt sup).call = .free) (hcallA : (s.posAt a).call ≠ .free)
      (hotherA : ∀ b, s.supervisorOf a = some b → b = sup) (hotherS : ∀ b, s.agentOf sup = some b → b = a)
      (hgain : g.isSome ↔ m ≠ .listen) (hpos : t.pos = (relate sup a m g s).pos)
      (hlisteners : ∀ k, t.listenersOf k = s.listenersOf k)
  | reset (hpos : t.pos = State.reset.pos) (hprog : t.prog = State.reset.prog)

/-- A chain of moves. -/
abbrev CallMoves : State → State → Prop := Relation.ReflTransGen CallMove

theorem CallMoves.of_stand {s t : State} (h : CallsStand s t) : CallMoves s t := .single (.stand h)

/-- The usual case: neither table is touched. -/
theorem CallMoves.of_fields {s t : State} (hpos : t.pos = s.pos) (hprog : t.prog = s.prog) : CallMoves s t :=
  .of_stand (.of_fields hpos hprog)

theorem CallMoves.then_stand {s t u : State} (h : CallMoves s t) (h' : CallsStand t u) : CallMoves s u :=
  h.tail (.stand h')

theorem CallMoves.trans {s t u : State} (h : CallMoves s t) (h' : CallMoves t u) : CallMoves s u :=
  Relation.ReflTransGen.trans h h'

theorem CallMoves.then_fields {s t u : State} (h : CallMoves s t) (hpos : u.pos = t.pos) (hprog : u.prog = t.prog) :
    CallMoves s u := h.then_stand (.of_fields hpos hprog)

/-- What each move keeps, a chain of moves keeps. -/
theorem CallMoves.keep {P : State → Prop} (hP : ∀ s t, P s → CallMove s t → P t) {s t : State} (h : CallMoves s t)
    (hs : P s) : P t := by
  induction h with
  | refl => exact hs
  | tail _ hmove ih => exact hP _ _ ih hmove

/-- Moves of each position's turn are moves of all sixteen. -/
theorem CallMoves.forPositions {f : Nat → State → State} (h : ∀ p s, p < 16 → CallMoves s (f p s)) (s : State) :
    CallMoves s (forPositions f s) :=
  forPositions_keeps (CallMoves s) f (fun p t hp ht => ht.trans (h p t hp)) s .refl

/-- A command whose meaning on the accepted frame is a chain of moves is one itself. -/
theorem CallMoves.takeFrame {st : Station} {code : Byte} {roles : List Role} {fits whileStarting : Bool}
    {core : Role → State → State × Answer} (h : ∀ r t, CallMoves t (core r t).1) (s : State) :
    CallMoves s (Sys2Proof.Machine.takeFrame st code roles fits whileStarting core s) :=
  takeFrame_kept (CallMoves s) st code roles fits whileStarting core s
    (fun h => h.trans (CallMoves.of_fields rfl rfl)) (fun _ _ h => h.trans (CallMoves.of_fields rfl rfl))
    (fun r t ht => ht.trans (h r t)) .refl

/-- A command whose meaning leaves the positions and the programmes leaves the calls. -/
theorem CallMoves.takeQuiet {st : Station} {code : Byte} {roles : List Role} {fits whileStarting : Bool}
    {core : Role → State → State × Answer}
    (h : ∀ r t, (core r t).1.pos = t.pos ∧ (core r t).1.prog = t.prog) (s : State) :
    CallMoves s (Sys2Proof.Machine.takeFrame st code roles fits whileStarting core s) :=
  .takeFrame (fun r t => .of_fields (h r t).1 (h r t).2) s

/-- A change of the record of `p` alone that leaves the call, such as a mute or a gain. -/
theorem CallMoves.of_tuned (p : Nat) (f : Position → Position) (s : State)
    (hcall : (f (s.posAt p)).call = (s.posAt p).call) (hbinding : (f (s.posAt p)).binding = (s.posAt p).binding)
    (hhold : (f (s.posAt p)).hold = (s.posAt p).hold) (hrelation : (f (s.posAt p)).relation = (s.posAt p).relation)
    (hmute : (s.posAt p).effMute = ((s.posAt p).cmdMute || (s.posAt p).btnMute) →
      (f (s.posAt p)).effMute = ((f (s.posAt p)).cmdMute || (f (s.posAt p)).btnMute))
    (hramp : (s.posAt p).ramp ≤ 40 → (f (s.posAt p)).ramp ≤ 40) : CallMoves s (s.modPos p f) := by
  by_cases hp : p < 16
  · refine .single (.record p (f (s.posAt p)) hp (.tuned _ hcall hbinding hhold hrelation hmute hramp) ?_ ?_)
    · simp [tmod, State.posAt]
    · intro _ k _
      rw [hhold]; rfl
  · refine .of_fields (tab_ext _ _ fun i hi => ?_) rfl
    simp only [State.modPos_pos, tget_tmod, if_neg (show ¬ (p = i ∧ p < 16) by omega)]

/-! ### The laws that every move keeps -/

theorem unrelate_posAt (a b : Nat) (s : State) (q : Nat) (hq : q < 16) :
    (unrelate a b s).posAt q =
      { s.posAt q with relation := if q = a ∨ q = b then none else (s.posAt q).relation } := by
  simp only [unrelate, State.modPos_posAt]
  by_cases ha : a = q <;> by_cases hb : b = q <;> simp [ha, hb, hq, Ne.symm]

theorem relate_posAt (sup a : Nat) (m : MonitorMode) (g : Option Nat) (s : State) (q : Nat) (hq : q < 16) :
    (relate sup a m g s).posAt q =
      { s.posAt q with relation :=
          if q = a then some { form := .monitoredBy, other := sup, mode := m, gain := g }
          else if q = sup then some { form := .monitoring, other := a, mode := m, gain := g }
          else (s.posAt q).relation } := by
  simp only [relate, State.modPos_posAt]
  by_cases ha : a = q <;> by_cases hb : sup = q <;> simp [ha, hb, hq, eq_comm]

/-- The record of a position after a move: its own part changes, or its relation alone, or it is that of a reset. -/
theorem CallMove.posAt_cases {s t : State} (h : CallMove s t) (q : Nat) (hq : q < 16) :
    (RecordMove s q (t.posAt q)) ∨ (∃ r, t.posAt q = { s.posAt q with relation := r }) ∨
      t.posAt q = Position.reset := by
  cases h with
  | stand hst => exact .inr (.inl ⟨_, posAt_congr hst.1 q⟩)
  | record p y hp hy hpos _ =>
    rw [posAt_congr hpos, State.modPos_posAt]
    by_cases hpq : p = q
    · subst hpq; exact .inl (by simpa [hp] using hy)
    · exact .inr (.inl ⟨(s.posAt q).relation, by simp [hpq]⟩)
  | unrelated a b _ hpos _ => exact .inr (.inl ⟨_, (posAt_congr hpos q).trans (unrelate_posAt a b s q hq)⟩)
  | related sup a m g _ _ _ _ _ _ _ _ hpos _ =>
    exact .inr (.inl ⟨_, (posAt_congr hpos q).trans (relate_posAt sup a m g s q hq)⟩)
  | reset hpos _ => exact .inr (.inr ((posAt_congr hpos q).trans (tget_replicate q _ hq)))

theorem MuteLaw.move {s t : State} (h : MuteLaw s) (hm : CallMove s t) : MuteLaw t := by
  intro q hq
  obtain ⟨hmute, hramp⟩ := h q hq
  rcases hm.posAt_cases q hq with hy | ⟨r, hr⟩ | hr
  · generalize t.posAt q = y at hy
    cases hy with
    | tuned _ _ _ _ _ hmute' hramp' => exact ⟨hmute' hmute, hramp' hramp⟩
    | connected => exact ⟨hmute, hramp⟩
    | switched => exact ⟨hmute, hramp⟩
    | freed => exact ⟨rfl, Nat.le_refl 40⟩
  · rw [hr]; exact ⟨hmute, hramp⟩
  · rw [hr]; exact ⟨rfl, Nat.le_refl 40⟩

theorem RecordLaw.move {s t : State} (h : RecordLaw s) (hm : CallMove s t) : RecordLaw t := by
  intro q hq
  obtain ⟨hbound, hheld, htrunk, hprog⟩ := h q hq
  rcases hm.posAt_cases q hq with hy | ⟨r, hr⟩ | hr
  · generalize t.posAt q = y at hy
    cases hy with
    | tuned _ hcall hbinding hhold => rw [hcall, hbinding, hhold]; exact ⟨hbound, hheld, htrunk, hprog⟩
    | connected b hcall hrx htx =>
      have hnone : (s.posAt q).hold = none := by simpa [hcall] using hheld
      refine ⟨by simp, by simp [hnone], fun c hc => ?_, hprog⟩
      cases hc; exact ⟨hrx, htx⟩
    | switched c k hcall hc hform hrange =>
      exact ⟨by simpa [hc] using hbound.2 hcall, hform, htrunk, hrange⟩
    | freed => simp
  · rw [hr]; exact ⟨hbound, hheld, htrunk, hprog⟩
  · rw [hr]; simp [Position.reset]

theorem txTaken_false {s : State} {p tx : Nat} (h : s.txTaken p tx = false) (q : Nat) (hq : q < 16) (hne : q ≠ p)
    (c : Binding) (hc : (s.posAt q).binding = some c) : c.tx ≠ tx := by
  rintro rfl
  have := List.any_eq_false.1 h q (by simpa using hq)
  simp [hne, hc] at this

/-- A move leaves every binding or ends it, or it binds one position to a send timeslot that no other has. -/
theorem CallMove.binding_cases {s t : State} (h : CallMove s t) :
    (∀ q, q < 16 → (t.posAt q).binding = (s.posAt q).binding ∨ (t.posAt q).binding = none) ∨
      (∃ p b, (t.posAt p).binding = some b ∧ s.txTaken p b.tx = false ∧
        ∀ q, q < 16 → q ≠ p → (t.posAt q).binding = (s.posAt q).binding) := by
  cases h with
  | stand hst => exact .inl fun q _ => .inl (by rw [posAt_congr hst.1])
  | unrelated a b _ hpos _ => exact .inl fun q hq => .inl (by rw [posAt_congr hpos, unrelate_posAt a b s q hq])
  | related sup a m g _ _ _ _ _ _ _ _ hpos _ =>
    exact .inl fun q hq => .inl (by rw [posAt_congr hpos, relate_posAt sup a m g s q hq])
  | reset hpos _ =>
    exact .inl fun q hq => .inr (by rw [posAt_congr hpos q]; exact congrArg Position.binding (tget_replicate q _ hq))
  | record p y hp hy hpos _ =>
    have hp' : t.posAt p = y := by rw [posAt_congr hpos]; simp [hp]
    have hother : ∀ q, q ≠ p → t.posAt q = s.posAt q := fun q hq => by
      rw [posAt_congr hpos]; simp [Ne.symm hq]
    have hkeep : y.binding = (s.posAt p).binding ∨ y.binding = none →
        ∀ q, q < 16 → (t.posAt q).binding = (s.posAt q).binding ∨ (t.posAt q).binding = none := by
      intro h q _
      by_cases hq : q = p
      · subst hq; rwa [hp']
      · exact .inl (by rw [hother q hq])
    cases hy with
    | tuned _ _ hbinding => exact .inl (hkeep (.inl hbinding))
    | switched => exact .inl (hkeep (.inl rfl))
    | freed => exact .inl (hkeep (.inr rfl))
    | connected b _ _ _ hfree => exact .inr ⟨p, b, by rw [hp'], hfree, fun q _ hq => by rw [hother q hq]⟩

theorem SendLaw.move {s t : State} (h : SendLaw s) (hm : CallMove s t) : SendLaw t := by
  intro p hp q hq hpq b c hb hc
  rcases hm.binding_cases with hkeep | ⟨r, d, hd, hfree, hother⟩
  · have hb' : (s.posAt p).binding = some b := by simpa [hb, eq_comm] using hkeep p hp
    have hc' : (s.posAt q).binding = some c := by simpa [hc, eq_comm] using hkeep q hq
    exact h p hp q hq hpq b c hb' hc'
  · by_cases hpr : p = r
    · subst hpr
      obtain rfl : d = b := by simpa [hd] using hb
      exact (txTaken_false hfree q hq (Ne.symm hpq) c (by rw [← hother q hq (Ne.symm hpq), hc])).symm
    · have hb' : (s.posAt p).binding = some b := by rw [← hother p hp hpr, hb]
      by_cases hqr : q = r
      · subst hqr
        obtain rfl : d = c := by simpa [hd] using hc
        exact txTaken_false hfree p hp hpq b hb'
      · exact h p hp q hq hpq b c hb' (by rw [← hother q hq hqr, hc])

/-! Relations. -/

theorem supervisorOf_eq_some (s : State) (a b : Nat) :
    s.supervisorOf a = some b ↔ ∃ r, (s.posAt a).relation = some r ∧ r.form = .monitoredBy ∧ r.other = b := by
  unfold State.supervisorOf
  cases (s.posAt a).relation with
  | none => simp
  | some r => by_cases h : r.form = .monitoredBy <;> simp [h]

theorem agentOf_eq_some (s : State) (p a : Nat) :
    s.agentOf p = some a ↔ ∃ r, (s.posAt p).relation = some r ∧ r.form = .monitoring ∧ r.other = a := by
  unfold State.agentOf
  cases (s.posAt p).relation with
  | none => simp
  | some r => by_cases h : r.form = .monitoring <;> simp [h]

theorem relation_out (s : State) (p : Nat) (h : 16 ≤ p) : (s.posAt p).relation = none := by
  rw [State.posAt, tget_out _ _ h]; rfl

theorem relation_lt {s : State} {p : Nat} {r : Relation} (h : (s.posAt p).relation = some r) : p < 16 := by
  by_contra hp
  rw [relation_out s p (by omega)] at h
  cases h

/-- Under the relation law a position that is FREE supervises, or has no relation. -/
theorem RelationLaw.free {s : State} (h : RelationLaw s) {p : Nat} (hcall : (s.posAt p).call = .free)
    (halone : s.agentOf p = none) : (s.posAt p).relation = none := by
  by_contra hne
  obtain ⟨r, hr⟩ := Option.ne_none_iff_exists'.1 hne
  obtain ⟨_, _, _, hform, _⟩ := h p (relation_lt hr) r hr
  rw [(agentOf_eq_some s p r.other).2 ⟨r, hr, hform.2 hcall, rfl⟩] at halone
  cases halone

/-- Under the relation law a position in a call is monitored, or has no relation. -/
theorem RelationLaw.inCall {s : State} (h : RelationLaw s) {p : Nat} (hcall : (s.posAt p).call ≠ .free)
    (halone : s.supervisorOf p = none) : (s.posAt p).relation = none := by
  by_contra hne
  obtain ⟨r, hr⟩ := Option.ne_none_iff_exists'.1 hne
  obtain ⟨_, _, _, hform, _⟩ := h p (relation_lt hr) r hr
  have hby : r.form = .monitoredBy := by
    cases hf : r.form with
    | monitoredBy => rfl
    | monitoring => exact absurd (hform.1 hf) hcall
  rw [(supervisorOf_eq_some s p r.other).2 ⟨r, hr, hby, rfl⟩] at halone
  cases halone

/-- Under the relation law a supervisor and its agent name each other. -/
theorem RelationLaw.supervisor_iff {s : State} (h : RelationLaw s) (a b : Nat) :
    s.supervisorOf a = some b ↔ s.agentOf b = some a := by
  rw [supervisorOf_eq_some, agentOf_eq_some]
  constructor
  · rintro ⟨r, hr, hform, rfl⟩
    obtain ⟨_, _, hmirror, _⟩ := h a (relation_lt hr) r hr
    exact ⟨_, hmirror, by simp [hform, RelationForm.mirror], rfl⟩
  · rintro ⟨r, hr, hform, rfl⟩
    obtain ⟨_, _, hmirror, _⟩ := h b (relation_lt hr) r hr
    exact ⟨_, hmirror, by simp [hform, RelationForm.mirror], rfl⟩

/-- A relation names a record whose own relation names this one back, so two relations of one record are one. -/
theorem RelationLaw.named_once {s : State} (h : RelationLaw s) {p q : Nat} {r u : Relation}
    (hr : (s.posAt p).relation = some r) (hu : (s.posAt q).relation = some u) (hother : r.other = q) : u.other = p := by
  obtain ⟨_, _, hmirror, _⟩ := h p (relation_lt hr) r hr
  rw [hother, hu] at hmirror
  cases hmirror; rfl

/-- A record move leaves every relation, and under the relation law a related position stays FREE or in its call. -/
theorem RecordMove.relation {s : State} {p : Nat} {y : Position} (hy : RecordMove s p y) (h : RelationLaw s) :
    y.relation = (s.posAt p).relation ∧
      ((s.posAt p).relation ≠ none → (y.call = .free ↔ (s.posAt p).call = .free)) := by
  cases hy with
  | tuned _ hcall _ _ hrelation => exact ⟨hrelation, fun _ => by rw [hcall]⟩
  | connected b hcall _ _ _ halone => exact ⟨rfl, fun hne => absurd (h.free hcall halone) hne⟩
  | switched c k hcall hc => exact ⟨rfl, fun _ => by simp [hcall, hc]⟩
  | freed hcall halone => exact ⟨rfl, fun hne => absurd (h.inCall hcall halone) hne⟩

theorem RelationLaw.move {s t : State} (h : RelationLaw s) (hm : CallMove s t) : RelationLaw t := by
  intro q hq r hr
  cases hm with
  | stand hst =>
    rw [posAt_congr hst.1] at hr
    simpa only [posAt_congr hst.1] using h q hq r hr
  | reset hpos _ =>
    have : t.posAt q = Position.reset := (posAt_congr hpos q).trans (tget_replicate q _ hq)
    rw [this] at hr; cases hr
  | record p y hp hy hpos _ =>
    obtain ⟨hrelation, hcall⟩ := hy.relation h
    have hrel : ∀ i, (t.posAt i).relation = (s.posAt i).relation := fun i => by
      rw [posAt_congr hpos, State.modPos_posAt]
      split
      next hpi => rw [hrelation, hpi.1]
      next => rfl
    rw [hrel] at hr
    have hsame : (t.posAt q).call = .free ↔ (s.posAt q).call = .free := by
      rw [posAt_congr hpos, State.modPos_posAt]
      split
      next hpq =>
        obtain ⟨rfl, _⟩ := hpq
        exact hcall (by simp [hr])
      next => rfl
    simpa only [hrel, hsame] using h q hq r hr
  | unrelated a b hab hpos _ =>
    have hpair : s.supervisorOf a = some b ∧ s.agentOf b = some a := by
      rcases hab with hab | hab
      · exact ⟨hab, (h.supervisor_iff a b).1 hab⟩
      · exact ⟨(h.supervisor_iff a b).2 hab, hab⟩
    obtain ⟨ra, hra, _, hrab⟩ := (supervisorOf_eq_some s a b).1 hpair.1
    obtain ⟨rb, hrb, _, hrba⟩ := (agentOf_eq_some s b a).1 hpair.2
    rw [posAt_congr hpos, unrelate_posAt a b s q hq] at hr
    by_cases hqab : q = a ∨ q = b
    · simp [hqab] at hr
    · simp only [hqab, if_false] at hr
      obtain ⟨hlt, hne, hmirror, hform, hgain⟩ := h q hq r hr
      have hothera : r.other ≠ a := fun ho => hqab (.inr ((h.named_once hr hra ho).symm.trans hrab))
      have hotherb : r.other ≠ b := fun ho => hqab (.inl ((h.named_once hr hrb ho).symm.trans hrba))
      refine ⟨hlt, hne, ?_, ?_, hgain⟩
      · rw [posAt_congr hpos, unrelate_posAt a b s _ hlt]
        simpa [hothera, hotherb] using hmirror
      · rw [posAt_congr hpos, unrelate_posAt a b s q hq]; exact hform
  | related sup a m g hsup ha hne hcallS hcallA hotherA hotherS hgain hpos _ =>
    have ht : ∀ i, i < 16 → t.posAt i = _ := fun i hi =>
      (posAt_congr hpos i).trans (relate_posAt sup a m g s i hi)
    rw [ht q hq] at hr
    by_cases hqa : q = a
    · subst hqa
      obtain rfl : _ = r := by simpa using hr
      exact ⟨hsup, hne, by simp [ht sup hsup, hne, RelationForm.mirror], by simpa [ht q hq] using hcallA, hgain⟩
    by_cases hqs : q = sup
    · subst hqs
      obtain rfl : _ = r := by simpa [hqa] using hr
      exact ⟨ha, Ne.symm hne, by simp [ht a ha, RelationForm.mirror], by simpa [ht q hq] using hcallS, hgain⟩
    · simp only [hqa, hqs, if_false] at hr
      obtain ⟨hlt, hneq, hmirror, hform, hgain'⟩ := h q hq r hr
      have hothera : r.other ≠ a := by
        rintro rfl
        have hsome := mt (h.inCall hcallA) (by simp [hmirror])
        obtain ⟨b, hb⟩ := Option.ne_none_iff_exists'.1 hsome
        obtain ⟨u, hu, _, hub⟩ := (supervisorOf_eq_some s _ b).1 hb
        exact hqs ((h.named_once hr hu rfl).symm.trans (hub.trans (hotherA b hb)))
      have hothers : r.other ≠ sup := by
        rintro rfl
        have hsome := mt (h.free hcallS) (by simp [hmirror])
        obtain ⟨b, hb⟩ := Option.ne_none_iff_exists'.1 hsome
        obtain ⟨u, hu, _, hub⟩ := (agentOf_eq_some s _ b).1 hb
        exact hqa ((h.named_once hr hu rfl).symm.trans (hub.trans (hotherS b hb)))
      refine ⟨hlt, hneq, ?_, by simpa [ht q hq] using hform, hgain'⟩
      rw [ht _ hlt]
      simpa [hothera, hothers] using hmirror

/-! Listener counts. -/

/-- The number of positions HELD on programme `k` (R132). -/
def State.heldOn (s : State) (k : Nat) : Nat := (List.range 16).countP (fun p => (s.posAt p).hold == some k)

theorem listenerLaw_iff (s : State) : ListenerLaw s ↔ ∀ k, k < 4 → s.listenersOf k = s.heldOn k := by
  simp only [ListenerLaw, State.listenersOf, State.heldOn, List.countP_eq_length_filter]

/-- Where two predicates differ at `p` at most, so do their counts. -/
theorem countP_range_update (f g : Nat → Bool) (p : Nat) (hfg : ∀ q, q ≠ p → g q = f q) (n : Nat) :
    (List.range n).countP g + (if p < n ∧ f p then 1 else 0) = (List.range n).countP f + (if p < n ∧ g p then 1 else 0) := by
  induction n with
  | zero => simp
  | succ m ih =>
    simp only [List.range_succ, List.countP_append, List.countP_singleton]
    by_cases hpm : m = p
    · subst hpm
      simp only [Nat.lt_irrefl, false_and, if_false, Nat.lt_succ_self, true_and] at ih ⊢
      omega
    · rw [hfg m hpm]
      have : (p < m + 1) = (p < m) := by simp; omega
      simp only [this]
      omega

theorem RecordLaw.holdCounted {s : State} (hrec : RecordLaw s) (hlis : ListenerLaw s) {p : Nat} (hp : p < 16) :
    s.HoldCounted p := by
  obtain ⟨_, hheld, _, hrange⟩ := hrec p hp
  refine ⟨hheld, fun k hk => ⟨hrange k hk, ?_⟩⟩
  rw [(listenerLaw_iff s).1 hlis k (hrange k hk)]
  exact List.countP_pos_iff.2 ⟨p, by simpa using hp, by simp [hk]⟩

theorem ListenerLaw.move {s t : State} (hrec : RecordLaw s) (h : ListenerLaw s) (hm : CallMove s t) :
    ListenerLaw t := by
  rw [listenerLaw_iff] at h ⊢
  intro k hk
  have hsame : (∀ q, q < 16 → (t.posAt q).hold = (s.posAt q).hold) → t.heldOn k = s.heldOn k := fun hq =>
    List.countP_congr fun q hq' => by rw [hq q (by simpa using hq')]
  cases hm with
  | stand hst => rw [hst.2, h k hk, hsame fun q _ => by rw [posAt_congr hst.1]]
  | unrelated a b _ hpos hl =>
    rw [hl, h k hk, hsame fun q hq => by rw [posAt_congr hpos, unrelate_posAt a b s q hq]]
  | related sup a m g _ _ _ _ _ _ _ _ hpos hl =>
    rw [hl, h k hk, hsame fun q hq => by rw [posAt_congr hpos, relate_posAt sup a m g s q hq]]
  | reset hpos hprog =>
    have hl : t.listenersOf k = 0 := by
      rw [State.listenersOf, progAt_congr hprog]
      exact congrArg Programme.listeners (tget_replicate k _ hk)
    have hp : ∀ q, q < 16 → (t.posAt q).hold = none := fun q hq => by
      rw [posAt_congr hpos]; exact congrArg Position.hold (tget_replicate q _ hq)
    rw [hl, eq_comm]
    exact List.countP_eq_zero.2 fun q hq => by simp [hp q (by simpa using hq)]
  | record p y hp hy hpos hl =>
    have hfollow := hl (hrec.holdCounted ((listenerLaw_iff s).2 h) hp) k hk
    have hcount := countP_range_update (fun q => (s.posAt q).hold == some k) (fun q => (t.posAt q).hold == some k) p
      (fun q hq => by simp [posAt_congr hpos, Ne.symm hq]) 16
    have hp' : t.posAt p = y := by rw [posAt_congr hpos]; simp [hp]
    simp only [hp, hp', true_and, beq_iff_eq] at hcount
    rw [h k hk] at hfollow
    unfold State.heldOn at *
    omega

end Sys2Proof.Machine
end

section
/-! SUPPORT. Each operation of the model as a chain of moves of the calls, up to the step. -/

namespace Sys2Proof.Machine

/-! ### Operations that leave the calls -/

/-- A programme entry changes, but not its listener count. -/
theorem CallsStand.modProg (k : Nat) (f : Programme → Programme) (hf : ∀ g, (f g).listeners = g.listeners) (s : State) :
    CallsStand s (s.modProg k f) := by
  refine ⟨rfl, fun j => ?_⟩
  simp only [State.listenersOf, State.modProg_progAt]
  split
  next h => rw [hf, h.1]
  next => rfl

theorem applyPending_stand (k : Nat) (s : State) : CallsStand s (applyPending k s) := by
  have hclip (c) : CallsStand s (s.modProg k (fun g => { g with clip := c, pending := .empty })) :=
    .modProg k _ (by intro _; rfl) s
  unfold applyPending
  split
  · exact .rfl' s
  · exact (hclip _).trans (.of_fields (State.post_pos ..) (State.post_prog ..))
  · exact (hclip _).trans (.of_fields (State.post_pos ..) (State.post_prog ..))

theorem settleProgramme_stand (k : Nat) (s : State) : CallsStand s (settleProgramme k s) := by
  unfold settleProgramme
  dsimp only
  split
  · exact (applyPending_stand k s).trans (.of_fields (by simp) (by simp))
  · exact applyPending_stand k s

theorem reachIdle_stand (i : Nat) (c : Cause) (s : State) : CallsStand s (reachIdle i c s) := by
  unfold reachIdle
  dsimp only
  split <;> split <;> first
    | exact .of_fields (by simp) (by simp)
    | exact CallsStand.trans (.of_fields (by simp) (by simp)) (settleProgramme_stand _ _)

theorem stoppingFrame_stand (i : Nat) (s : State) : CallsStand s (stoppingFrame i s) := by
  unfold stoppingFrame
  dsimp only
  split
  · exact CallsStand.trans (.of_fields rfl rfl) (reachIdle_stand _ _ _)
  · split <;> exact .of_fields rfl rfl

theorem slotFrame_stand (i : Nat) (s : State) : CallsStand s (slotFrame i s) := by
  unfold slotFrame
  dsimp only
  split
  · exact .of_fields rfl rfl
  · exact .of_fields rfl rfl
  · split
    · split <;> exact .of_fields (by simp) (by simp)
    · exact .of_fields rfl rfl
  · split
    · exact CallsStand.trans (.of_fields rfl rfl) (reachIdle_stand _ _ _)
    · exact .of_fields rfl rfl
  · exact stoppingFrame_stand i s

theorem programmeTaken_stand (k : Nat) (c : Option Nat) (s : State) : CallsStand s (programmeTaken k c s) := by
  have hmod (c p) : CallsStand s (s.modProg k (fun g => { g with clip := c, pending := p })) :=
    .modProg k _ (by intro _; rfl) s
  have hpending (p) : CallsStand s (s.modProg k (fun g => { g with pending := p })) := .modProg k _ (by intro _; rfl) s
  unfold programmeTaken
  dsimp only
  split
  · split
    · exact (hmod c .empty).trans (.of_fields (by simp) (by simp))
    · exact hmod _ _
  · split
    · split <;> exact hpending _
    · exact hpending _

theorem programmePassEnd_stand (k : Nat) (s : State) : CallsStand s (programmePassEnd k s) := by
  unfold programmePassEnd
  dsimp only
  split
  · exact CallsStand.trans (.of_fields (by split <;> simp) (by split <;> simp)) (applyPending_stand _ _)
  · exact CallsStand.trans (.of_fields rfl rfl) (applyPending_stand _ _)
  · split <;> exact .of_fields rfl rfl

theorem passEnd_stand (i : Nat) (s : State) : CallsStand s (passEnd i s) := by
  unfold passEnd
  dsimp only
  split
  · exact (programmePassEnd_stand i s).trans (.of_fields rfl rfl)
  · split <;> exact .of_fields rfl rfl
  · exact .of_fields rfl rfl

theorem arrive_stand (i : Nat) (bytes : List Byte) (s : State) : CallsStand s (arrive i bytes s) := by
  unfold arrive
  dsimp only
  split
  · refine CallsStand.trans (t := passEnd i (s.modSlot i _)) ?_ (.of_fields rfl rfl)
    exact CallsStand.trans (.of_fields rfl rfl) (passEnd_stand _ _)
  · exact .of_fields rfl rfl

theorem fetchArrival_stand (bytes : List Byte) (s : State) : CallsStand s (fetchArrival bytes s) := by
  unfold fetchArrival
  dsimp only
  repeat' split
  all_goals first
    | exact .of_fields (by simp) (by simp)
    | exact CallsStand.trans (.of_fields rfl rfl) (arrive_stand _ _ _)

theorem bindProgramme_stand (k c : Nat) (s : State) : CallsStand s (bindProgramme k c s) := by
  unfold bindProgramme
  split
  · exact .modProg k _ (by intro _; rfl) s
  · exact .rfl' s

theorem takeEntry_stand (dir : List Byte) (acc : State × Nat) (i : Nat) : CallsStand acc.1 (takeEntry dir acc i).1 := by
  unfold takeEntry
  dsimp only
  split
  · exact .rfl' _
  · split
    · exact .rfl' _
    · dsimp only
      split
      · exact CallsStand.trans (.of_fields rfl rfl) (bindProgramme_stand _ _ _)
      · exact .of_fields rfl rfl

theorem takeEntries_stand (dir : List Byte) (l : List Nat) (acc : State × Nat) :
    CallsStand acc.1 (l.foldl (takeEntry dir) acc).1 := by
  induction l generalizing acc with
  | nil => exact .rfl' _
  | cons i l ih => exact (takeEntry_stand dir acc i).trans (ih _)

theorem loadEnds_pos (c : Cause) (n : Nat) (s : State) : (loadEnds c n s).pos = s.pos := by simp
theorem loadEnds_prog (c : Cause) (n : Nat) (s : State) : (loadEnds c n s).prog = s.prog := by simp

theorem startupLoadEnd_stand (dir : List Byte) (s : State) : CallsStand s (startupLoadEnd dir s) := by
  unfold startupLoadEnd
  dsimp only
  split
  · split
    · refine CallsStand.trans (t := (_ : State × Nat).1) ?_ (.of_fields (loadEnds_pos ..) (loadEnds_prog ..))
      exact CallsStand.trans (t := s.modStore _) (.of_fields rfl rfl) (takeEntries_stand dir _ (_, 0))
    · exact .of_fields (by simp) (by simp)
  · exact .rfl' s

/-! ### Mutes and headset words -/

theorem stepRamp_le (x : Position) (h : x.ramp ≤ 40) : x.stepRamp.ramp ≤ 40 := by
  unfold Position.stepRamp Position.rampTarget
  simp only [Config.rampTop]
  repeat' split
  all_goals simp_all
  all_goals omega

theorem muteStep_moves (p : Nat) (s : State) : CallMoves s (muteStep p s) := by
  have hstep : CallMoves s (s.modPos p Position.stepRamp) := by
    refine .of_tuned p _ s ?_ ?_ ?_ ?_ ?_ (stepRamp_le _)
    all_goals (unfold Position.stepRamp; (repeat' split) <;> simp)
  unfold muteStep
  dsimp only
  split
  · exact hstep.then_stand (.of_fields (by simp) (by simp))
  · exact hstep

theorem remute_moves (p : Nat) (b : Bool) (s : State) :
    CallMoves s (s.modPos p (fun x => Position.remute { x with btnMute := b })) :=
  .of_tuned p _ s rfl rfl rfl rfl (fun _ => rfl) id

/-- A debounced press is a change of the mutes (R17, R164). -/
theorem debounce_moves (p : Nat) (b : Bool) (s : State) : CallMoves s (debounce p b s) := by
  have hpress (s : State) : CallMoves s (pressButton p s) := by
    unfold pressButton
    refine CallMoves.then_stand (CallMoves.of_tuned p _ s ?_ ?_ ?_ ?_ ?_ ?_) (.of_fields (State.post_pos ..) (State.post_prog ..))
    all_goals simp [Position.remute]
  unfold debounce
  dsimp only
  split
  · exact .of_fields rfl rfl
  · split
    · exact .of_fields rfl rfl
    · split
      · refine CallMoves.trans ?_ (hpress _)
        exact .of_fields rfl rfl
      · exact .of_fields rfl rfl

/-- The link's fall sets button mute off (R161). -/
theorem linkDown_moves (p : Nat) (s : State) : CallMoves s (linkDown p s) := by
  unfold linkDown
  dsimp only
  refine CallMoves.then_stand ?_ (.of_fields (State.post_pos ..) (State.post_prog ..))
  exact CallMoves.trans (CallMoves.of_fields (by simp) (by simp)) (remute_moves p false _)

theorem headsetWord_moves (p : Nat) (w : BitVec 19) (s : State) : CallMoves s (headsetWord p w s) := by
  have hhand (d) (t : State) (h : CallMoves s t) : CallMoves s (handOn p d t) := h.then_fields (by simp) (by simp)
  unfold headsetWord
  split
  · unfold goodWord
    dsimp only
    split
    · exact hhand _ _ (.of_fields rfl rfl)
    · split
      · exact hhand _ _ (.of_fields (by simp) (by simp))
      · exact hhand _ _ (.of_fields rfl rfl)
    · refine hhand _ _ (CallMoves.trans ?_ (debounce_moves _ _ _))
      exact .of_fields rfl rfl
  · unfold badWord
    dsimp only
    split
    · exact hhand _ _ .refl
    · exact hhand _ _ (.of_fields rfl rfl)
    · split
      · exact hhand _ _ (linkDown_moves p s)
      · exact hhand _ _ (.of_fields rfl rfl)

theorem takeWord_moves (p : Nat) (w : BitVec 19) (s : State) : CallMoves s (takeWord p w s) :=
  (headsetWord_moves p w s).then_fields rfl rfl

theorem fillWords_moves (n : Nat) (s : State) : CallMoves s (fillWords n s) := by
  induction n generalizing s with
  | zero => exact .refl
  | succ n ih => exact (takeWord_moves _ _ s).trans (ih _)

theorem missingWords_moves (s : State) : CallMoves s (missingWords s) := fillWords_moves _ s

theorem headsetWordArrival_moves (p : Nat) (w : BitVec 19) (s : State) : CallMoves s (headsetWordArrival p w s) := by
  rcases headsetWordArrival_cases p w s with ⟨_, h⟩ | ⟨_, h⟩
  · rw [h]
  · rw [h]; exact (fillWords_moves _ s).trans (takeWord_moves _ _ _)

/-! ### Calls -/

theorem listenerUp_prog (k : Nat) (s : State) :
    (listenerUp k s).prog = (s.modProg k (fun g => { g with listeners := g.listeners + 1 })).prog := by
  unfold listenerUp
  dsimp only
  split
  · split <;> simp
  · rfl

theorem listenerDown_prog (k : Nat) (s : State) :
    (listenerDown k s).prog = (s.modProg k (fun g => { g with listeners := g.listeners - 1 })).prog := by
  unfold listenerDown
  dsimp only
  split
  · simp
  · rfl

@[simp] theorem modPos_listenersOf (p : Nat) (f : Position → Position) (s : State) (k : Nat) :
    (s.modPos p f).listenersOf k = s.listenersOf k := rfl

/-- A position joins a programme: its listener count rises (R133). -/
theorem listenerUp_listenersOf (k : Nat) (s : State) (j : Nat) (hj : j < 4) :
    (listenerUp k s).listenersOf j = s.listenersOf j + if k = j then 1 else 0 := by
  simp only [State.listenersOf, progAt_congr (listenerUp_prog k s), State.modProg_progAt]
  by_cases h : k = j
  · subst h; simp [hj]
  · simp [h]

/-- A position leaves a programme: its listener count falls (R133). -/
theorem listenerDown_listenersOf (k : Nat) (s : State) (j : Nat) (hj : j < 4) :
    (listenerDown k s).listenersOf j = s.listenersOf j - if k = j then 1 else 0 := by
  simp only [State.listenersOf, progAt_congr (listenerDown_prog k s), State.modProg_progAt]
  by_cases h : k = j
  · subst h; simp [hj]
  · simp [h]

/-- A move of the record of `p` alone, with the listener counts. -/
theorem CallMoves.of_record {s t : State} (p : Nat) (f : Position → Position) (hp : p < 16)
    (hy : RecordMove s p (f (s.posAt p))) (hpos : t.pos = (s.modPos p f).pos)
    (hl : s.HoldCounted p → ListenersFollow s t (s.posAt p) (f (s.posAt p))) : CallMoves s t :=
  .single (.record p _ hp hy hpos hl)

theorem txTaken_congr {s t : State} (h : ∀ q, q < 16 → (t.posAt q).binding = (s.posAt q).binding) (p tx : Nat) :
    t.txTaken p tx = s.txTaken p tx := by
  unfold State.txTaken
  rw [Bool.eq_iff_iff]
  simp only [List.any_eq_true, List.mem_range]
  exact exists_congr fun q => and_congr_right fun hq => by rw [h q hq]

theorem connectTaken_moves (p rx tx : Nat) (s : State) (hp : p < 16) (hrx : rx < 32) (htx : tx < 32)
    (hcall : (s.posAt p).call = .free) (hfree : s.txTaken p tx = false) : CallMoves s (connectTaken p rx tx s) := by
  have hset (t : State) (ht : CallMoves s t) (hcall : (t.posAt p).call = .free) (hfree : t.txTaken p tx = false)
      (halone : t.agentOf p = none) :
      CallMoves s (t.modPos p (fun x => { x with call := .connected, binding := some { rx := rx, tx := tx } })) :=
    ht.trans (.of_record p _ hp (.connected { rx := rx, tx := tx } hcall hrx htx hfree halone) rfl fun _ _ _ => rfl)
  unfold connectTaken
  cases ha : s.agentOf p with
  | none => exact hset s .refl hcall hfree ha
  | some a =>
    have hrel : ∀ q, q < 16 → _ := unrelate_posAt a p s
    refine hset _ (CallMoves.then_fields (.single (.unrelated a p (.inr ha) rfl fun _ => rfl)) (State.post_pos ..)
      (State.post_prog ..)) ?_ ?_ ?_
    · simp [hrel p hp, hcall]
    · rw [← hfree]
      exact txTaken_congr (fun q hq => by simp [hrel q hq]) p tx
    · simp [State.agentOf, hrel p hp]

theorem holdCore_moves (ps : List Byte) (s : State) : CallMoves s (holdCore ps s).1 := by
  unfold holdCore
  dsimp only
  generalize field1 ps 0 = p
  generalize field1 ps 1 = k
  split
  · exact .refl
  next hrange =>
    have hp : p < 16 := by omega
    have hk : k < 4 := by omega
    split
    · exact .refl
    next hcall =>
      refine .of_record p (fun x => { x with call := .held, hold := some k }) hp
        (.switched .held (some k) (by simp [hcall]) (by simp) (by simp) (by simp [hk])) (by simp) ?_
      rintro ⟨hform, -⟩ j hj
      have hnone : (s.posAt p).hold = none := by simpa [hcall] using hform
      simp [listenerUp_listenersOf k _ j hj, hnone]
    next hcall =>
      split
      · exact .refl
      next hne =>
        refine .of_record p (fun x => { x with hold := some k }) hp ?_ (by split <;> simp) ?_
        · simpa [hcall] using RecordMove.switched (s := s) (p := p) .held (some k) (by simp [hcall]) (by simp) (by simp)
            (by simp [hk])
        · rintro ⟨hform, hcount⟩ j hj
          obtain ⟨i, hi⟩ := Option.isSome_iff_exists.1 (hform.2 hcall)
          obtain ⟨-, hpos⟩ := hcount i hi
          simp only [hi, listenerUp_listenersOf k _ j hj, modPos_listenersOf, listenerDown_listenersOf i s j hj,
            Option.some.injEq]
          by_cases hij : i = j
          · subst hij; simp only [if_true]; omega
          · simp only [hij, if_false]; omega

theorem resumeCore_moves (ps : List Byte) (s : State) : CallMoves s (resumeCore ps s).1 := by
  unfold resumeCore
  dsimp only
  generalize field1 ps 0 = p
  split
  · exact .refl
  next hrange =>
    have hp : p < 16 := by omega
    split
    · exact .refl
    · exact .refl
    next hcall =>
      refine .of_record p (fun x => { x with call := .connected, hold := none }) hp
        (.switched .connected none (by simp [hcall]) (by simp) (by simp) (by simp)) (by split <;> simp) ?_
      rintro ⟨hform, hcount⟩ j hj
      obtain ⟨i, hi⟩ := Option.isSome_iff_exists.1 (hform.2 hcall)
      obtain ⟨-, hpos⟩ := hcount i hi
      simp only [hi, listenerDown_listenersOf i _ j hj, modPos_listenersOf, Option.some.injEq]
      by_cases hij : i = j
      · subst hij; simp; omega
      · simp [hij]

theorem connectCore_moves (ps : List Byte) (s : State) : CallMoves s (connectCore ps s).1 := by
  unfold connectCore
  dsimp only
  split
  · exact .refl
  split
  · exact .refl
  split
  · exact .refl
  next hrange hcall htaken =>
    exact connectTaken_moves _ _ _ s (by omega) (by omega) (by omega) (by simpa using hcall) (by simpa using htaken)

/-! Teardown. -/

/-- The end of a relation touches the relations of the agent and of its supervisor, and no more (R13, R23). -/
theorem endMonitoring_posAt (p : Nat) (c : Cause) (s : State) (q : Nat) (hq : q < 16) :
    (endMonitoring p c s).posAt q =
      { s.posAt q with relation :=
          if (s.supervisorOf p).isSome ∧ q = p ∨ s.supervisorOf p = some q then none else (s.posAt q).relation } := by
  unfold endMonitoring
  cases h : s.supervisorOf p with
  | none => simp
  | some b => simp [unrelate_posAt p b s q hq, eq_comm]

/-- The record of a position that is torn down (R13); its gains stand, and a relation in which it supervises. -/
def Position.tornDown (x : Position) : Position :=
  { x with call := .free, binding := none, hold := none, cmdMute := false, btnMute := false, effMute := false, ramp := 40 }

theorem supervisorOf_congr {s t : State} {a : Nat} (h : (t.posAt a).relation = (s.posAt a).relation) :
    t.supervisorOf a = s.supervisorOf a := by unfold State.supervisorOf; rw [h]

/-- Step 1 of a teardown (R13): the call and its binding end. -/
def Position.callEnded (x : Position) : Position := { x with call := .free, binding := none, hold := none }

/-- Step 2 of a teardown (R13): the hold programme, if there is one, loses a listener. -/
def leaveHold (k : Option Nat) (s : State) : State :=
  match k with
  | some k => listenerDown k s
  | none => s

/-- The steps of a teardown, in the order of R13. -/
theorem teardown_eq (p : Nat) (c : Cause) (s : State) :
    teardown p c s =
      (stopCaller p .released (flushWhispers p (endMonitoring p c
        (leaveHold (s.posAt p).hold (s.modPos p Position.callEnded))))).modPos p Position.unmuted := by
  unfold teardown leaveHold
  cases (s.posAt p).hold <;> rfl

theorem leaveHold_pos (k : Option Nat) (s : State) : (leaveHold k s).pos = s.pos := by
  cases k <;> simp [leaveHold]

theorem leaveHold_listenersOf (k : Option Nat) (s : State) (j : Nat) (hj : j < 4) :
    (leaveHold k s).listenersOf j = s.listenersOf j - if k = some j then 1 else 0 := by
  cases k with
  | none => simp [leaveHold]
  | some k => simpa [leaveHold] using listenerDown_listenersOf k s j hj

theorem teardown_pos (p : Nat) (c : Cause) (s : State) :
    (teardown p c s).pos = ((endMonitoring p c s).modPos p Position.tornDown).pos := by
  have ht (q : Nat) : (leaveHold (s.posAt p).hold (s.modPos p Position.callEnded)).posAt q = _ :=
    (posAt_congr (leaveHold_pos _ _) q).trans (State.modPos_posAt s p _ q)
  rw [teardown_eq]
  generalize leaveHold (s.posAt p).hold (s.modPos p Position.callEnded) = t at ht ⊢
  have hsup : t.supervisorOf p = s.supervisorOf p :=
    supervisorOf_congr (by rw [ht]; split <;> simp [Position.callEnded])
  refine tab_ext _ _ fun q hq => ?_
  show State.posAt _ q = State.posAt _ q
  have hkeep (u : State) : (stopCaller p .released (flushWhispers p u)).pos = u.pos := by simp
  simp only [State.modPos_posAt, posAt_congr (hkeep _)]
  by_cases hpq : p = q
  · subst hpq
    simp only [hq, and_self, if_true, endMonitoring_posAt p c _ p hq, hsup, ht]
    rfl
  · simp only [hpq, false_and, if_false, endMonitoring_posAt p c _ q hq, hsup, ht]

theorem teardown_prog (p : Nat) (c : Cause) (s : State) :
    (teardown p c s).prog = (leaveHold (s.posAt p).hold s).prog := by
  rw [teardown_eq]
  simp only [State.modPos_prog, stopCaller_keeps, flushWhispers_keeps, endMonitoring_keeps]
  cases (s.posAt p).hold with
  | none => rfl
  | some k => simp only [leaveHold, listenerDown_prog]; rfl

/-- The relation in which `p` is the agent ends. -/
theorem endMonitoring_moves (p : Nat) (c : Cause) (s : State) : CallMoves s (endMonitoring p c s) := by
  unfold endMonitoring
  cases h : s.supervisorOf p with
  | none => exact .refl
  | some b =>
    exact CallMoves.then_fields (.single (.unrelated p b (.inl h) rfl fun _ => rfl)) (State.post_pos ..) (State.post_prog ..)

theorem teardown_moves (p : Nat) (c : Cause) (s : State) (hp : p < 16) (hcall : (s.posAt p).call ≠ .free) :
    CallMoves s (teardown p c s) := by
  have hend := endMonitoring_posAt p c s p hp
  refine (endMonitoring_moves p c s).trans
    (.of_record p Position.tornDown hp (.freed (by rw [hend]; exact hcall) ?_) (teardown_pos p c s) ?_)
  · cases h : s.supervisorOf p with
    | none => exact (supervisorOf_congr (s := s) (by rw [hend]; simp [h])).trans h
    | some b =>
      have hnone : ((endMonitoring p c s).posAt p).relation = none := by rw [hend]; simp [h]
      simp [State.supervisorOf, hnone]
  · rintro ⟨-, hcount⟩ j hj
    have hj' : (teardown p c s).listenersOf j = _ :=
      (congrArg Programme.listeners (progAt_congr (teardown_prog p c s) j)).trans (leaveHold_listenersOf _ s j hj)
    have hsame : (endMonitoring p c s).listenersOf j = s.listenersOf j :=
      congrArg Programme.listeners (progAt_congr (by simp) j)
    have hhold : ((endMonitoring p c s).posAt p).hold = (s.posAt p).hold := by rw [hend]
    rw [hj', hsame, hhold]
    by_cases hk : (s.posAt p).hold = some j
    · have := (hcount j (hhold.trans hk)).2
      simp only [hk, if_true, Position.tornDown, reduceCtorEq, if_false]
      omega
    · simp [hk, Position.tornDown]

theorem forcedRelease_moves (s : State) : CallMoves s (forcedRelease s) := by
  refine .forPositions (fun p t hp => ?_) s
  split
  · exact .refl
  next hcall => exact (teardown_moves p .lineLoss t hp hcall).then_fields (State.post_pos ..) (State.post_prog ..)

theorem graceExpiry_moves (s : State) : CallMoves s (graceExpiry s) := by
  rcases graceExpiry_cases s with ⟨_, h⟩ | ⟨_, h⟩
  · rw [h]
    refine CallMoves.trans ?_ (forcedRelease_moves _)
    exact .of_fields rfl rfl
  · rw [h]

theorem blockBoundary_moves (s : State) : CallMoves s (blockBoundary s) := by
  rcases blockBoundary_cases s with ⟨_, h⟩ | ⟨_, h⟩
  · rw [h]
    refine CallMoves.trans (CallMoves.then_fields (missingWords_moves s) ?_ ?_) (graceExpiry_moves (blockWork _)) <;> simp
  · rw [h]

theorem makeBoundary_moves (n : NextFrame) (s : State) : CallMoves s (makeBoundary n s) :=
  (blockBoundary_moves s).then_fields rfl rfl

theorem forSlots_stand (s : State) : CallsStand s (forSlots slotFrame s) :=
  forSlots_keeps (CallsStand s) slotFrame (fun i t _ h => h.trans (slotFrame_stand i t)) s (.rfl' s)

/-- The work of a frame before the slots: the ramps, the samples, and what goes out (R19, R40, R59, R155, R169). -/
def frameOut (s : State) : State :=
  sendHighway s.tmn.lineOf (forPositions sendHeadset (formAll (forPositions muteStep s)))

theorem frameWork_eq (s : State) :
    frameWork s = ((forSlots slotFrame (frameOut s)).modTmn Timing.frameBegun).setWords 0 := rfl

theorem frameOut_pos (s : State) : (frameOut s).pos = (forPositions muteStep s).pos := by
  unfold frameOut
  simp [forPositions_field State.pos sendHeadset (fun _ _ => by simp)]

theorem frameOut_prog (s : State) : (frameOut s).prog = s.prog := by
  unfold frameOut
  simp [forPositions_field State.prog sendHeadset (fun _ _ => by simp),
    forPositions_field State.prog muteStep (fun _ _ => by simp)]

theorem frameWork_moves (s : State) : CallMoves s (frameWork s) := by
  rw [frameWork_eq]
  have hramps : CallMoves s (forPositions muteStep s) := .forPositions (fun p t _ => muteStep_moves p t) s
  have hout : CallMoves s (frameOut s) :=
    hramps.then_fields (frameOut_pos s)
      ((frameOut_prog s).trans (forPositions_field State.prog muteStep (fun _ _ => by simp) s).symm)
  exact (hout.then_stand (forSlots_stand _)).then_fields (by simp) (by simp)

theorem frameBoundary_moves (s : State) : CallMoves s (frameBoundary s) := by
  unfold frameBoundary
  split
  · exact ((missingWords_moves s).trans (blockBoundary_moves _)).trans (frameWork_moves _)
  · exact .refl

/-! ### Timing -/

theorem lineSync_moves (rx : Tab 32 Byte) (s : State) : CallMoves s (lineSync rx s) := by
  have hlock : CallMoves s (lock rx s) := by
    unfold lock
    dsimp only
    refine CallMoves.then_fields (t := if Config.lockPhase ≤ s.tmn.frameTimer then makeBoundary (.line rx) s else s)
      ?_ (by simp [postBoth]) (by simp [postBoth])
    split
    · exact makeBoundary_moves _ s
    · exact .refl
  unfold lineSync
  dsimp only
  split
  · exact .refl
  · split
    · exact .of_fields rfl rfl
    · split
      · split
        · exact hlock
        · exact .of_fields rfl rfl
      · exact .of_fields rfl rfl
    · split
      · exact (makeBoundary_moves (.line rx) s).then_fields rfl rfl
      · exact .refl

theorem clockFail_moves (s : State) : CallMoves s (clockFail s) := by
  unfold clockFail
  dsimp only
  split
  · exact (makeBoundary_moves .internal s).then_fields (by simp [postBoth]) (by simp [postBoth])
  · exact .refl

theorem graceTimerExpiry_moves (s : State) : CallMoves s (graceTimerExpiry s) := by
  unfold graceTimerExpiry
  split
  · exact graceExpiry_moves s
  · split
    · exact blockBoundary_moves s
    · exact .refl

theorem setGraceCore_moves (ps : List Byte) (s : State) : CallMoves s (setGraceCore ps s).1 := by
  refine CallMoves.trans ?_ (graceExpiry_moves _)
  exact .of_fields rfl rfl

/-! ### The other commands -/

theorem releaseCore_moves (ps : List Byte) (s : State) : CallMoves s (releaseCore ps s).1 := by
  unfold releaseCore
  dsimp only
  split
  · exact .refl
  split
  · exact .refl
  next hrange hcall => exact teardown_moves _ _ s (by omega) hcall

theorem muteCore_moves (ps : List Byte) (s : State) : CallMoves s (muteCore ps s).1 := by
  unfold muteCore
  dsimp only
  split
  · exact .refl
  · exact .of_tuned _ _ s rfl rfl rfl rfl (fun _ => rfl) id

theorem setCallGainsCore_moves (ps : List Byte) (s : State) : CallMoves s (setCallGainsCore ps s).1 := by
  unfold setCallGainsCore
  dsimp only
  split
  · exact .refl
  · exact .of_tuned _ _ s rfl rfl rfl rfl id id

theorem setSidetoneCore_moves (ps : List Byte) (s : State) : CallMoves s (setSidetoneCore ps s).1 := by
  unfold setSidetoneCore
  dsimp only
  split
  · exact .refl
  · exact .of_tuned _ _ s rfl rfl rfl rfl id id

theorem monitorCore_moves (ps : List Byte) (s : State) : CallMoves s (monitorCore ps s).1 := by
  unfold monitorCore
  dsimp only
  generalize field1 ps 0 = sup
  generalize field1 ps 1 = a
  split
  · exact .refl
  next m _ =>
  split
  · exact .refl
  split
  · exact .refl
  split
  · exact .refl
  split
  · exact .refl
  next hrange hne hcall hinUse =>
    obtain ⟨hcallA, hcallS⟩ := not_or.1 hcall
    obtain ⟨hotherA, hotherS⟩ := not_or.1 hinUse
    have hrelate (g : Option Nat) (hg : g.isSome ↔ m ≠ .listen) : CallMoves s (relate sup a m g s) := by
      refine .single (.related sup a m g (by omega) (by omega) hne (not_not.1 hcallS) hcallA ?_ ?_ hg rfl fun _ => rfl)
      · rintro b hb; simpa [hb] using hotherA
      · rintro b hb; simpa [hb] using hotherS
    split
    · exact hrelate none (by simp)
    · exact hrelate _ (by simp)
    · exact hrelate _ (by simp)

theorem unmonitorCore_moves (ps : List Byte) (s : State) : CallMoves s (unmonitorCore ps s).1 := by
  unfold unmonitorCore
  dsimp only
  split
  · exact .refl
  · split
    next b hb => exact .single (.unrelated _ b (.inl hb) rfl fun _ => rfl)
    · exact .refl

theorem setProgrammeCore_moves (ps : List Byte) (s : State) : CallMoves s (setProgrammeCore ps s).1 := by
  unfold setProgrammeCore
  dsimp only
  repeat' split
  all_goals first
    | exact .refl
    | exact .of_stand (programmeTaken_stand _ _ s)

theorem refuseFrame_moves (st : Station) (body : List Byte) (status : Status) (s : State) :
    CallMoves s (refuseFrame st body status s) := .of_fields rfl rfl

theorem unknownCommand_moves (st : Station) (body : List Byte) (s : State) : CallMoves s (unknownCommand st body s) := by
  unfold unknownCommand
  split
  · exact refuseFrame_moves ..
  · split
    · exact refuseFrame_moves ..
    · exact .refl

/-! The commands that touch no position record and no programme. -/

theorem whisperPromptCore_calls (ps : List Byte) (s : State) :
    (whisperPromptCore ps s).1.pos = s.pos ∧ (whisperPromptCore ps s).1.prog = s.prog := by
  unfold whisperPromptCore
  dsimp only
  repeat' split
  all_goals simp

theorem clearWhispersCore_calls (ps : List Byte) (s : State) :
    (clearWhispersCore ps s).1.pos = s.pos ∧ (clearWhispersCore ps s).1.prog = s.prog := by
  unfold clearWhispersCore
  dsimp only
  repeat' split
  all_goals simp

theorem setEcCore_calls (ps : List Byte) (s : State) :
    (setEcCore ps s).1.pos = s.pos ∧ (setEcCore ps s).1.prog = s.prog := by
  unfold setEcCore
  dsimp only
  repeat' split
  all_goals simp

theorem resetEcCore_calls (ps : List Byte) (s : State) :
    (resetEcCore ps s).1.pos = s.pos ∧ (resetEcCore ps s).1.prog = s.prog := by
  unfold resetEcCore
  dsimp only
  repeat' split
  all_goals simp

theorem setLevelsCore_calls (ps : List Byte) (s : State) :
    (setLevelsCore ps s).1.pos = s.pos ∧ (setLevelsCore ps s).1.prog = s.prog := by
  unfold setLevelsCore
  dsimp only
  constructor
  · rw [forPositions_field State.pos _ (fun _ _ => State.modLev_pos ..)]
  · rw [forPositions_field State.prog _ (fun _ _ => State.modLev_prog ..)]

theorem setNeighboursCore_calls (ps : List Byte) (s : State) :
    (setNeighboursCore ps s).1.pos = s.pos ∧ (setNeighboursCore ps s).1.prog = s.prog := by
  unfold setNeighboursCore
  dsimp only
  repeat' split
  all_goals simp

theorem clipLoadCore_calls (ps : List Byte) (s : State) :
    (clipLoadCore ps s).1.pos = s.pos ∧ (clipLoadCore ps s).1.prog = s.prog := by
  unfold clipLoadCore
  dsimp only
  repeat' split
  all_goals simp

theorem clipDeleteCore_calls (ps : List Byte) (s : State) :
    (clipDeleteCore ps s).1.pos = s.pos ∧ (clipDeleteCore ps s).1.prog = s.prog := by
  unfold clipDeleteCore
  dsimp only
  repeat' split
  all_goals simp

theorem callerPromptCore_calls (ps : List Byte) (s : State) :
    (callerPromptCore ps s).1.pos = s.pos ∧ (callerPromptCore ps s).1.prog = s.prog := by
  unfold callerPromptCore
  dsimp only
  repeat' split
  all_goals simp

theorem stopPromptCore_calls (ps : List Byte) (s : State) :
    (stopPromptCore ps s).1.pos = s.pos ∧ (stopPromptCore ps s).1.prog = s.prog := by
  unfold stopPromptCore
  dsimp only
  repeat' split
  all_goals simp

theorem storeEraseCore_calls (ps : List Byte) (s : State) :
    (storeEraseCore ps s).1.pos = s.pos ∧ (storeEraseCore ps s).1.prog = s.prog := by
  unfold storeEraseCore
  dsimp only
  repeat' split
  all_goals simp

theorem storeWriteCore_calls (ps : List Byte) (s : State) :
    (storeWriteCore ps s).1.pos = s.pos ∧ (storeWriteCore ps s).1.prog = s.prog := by
  unfold storeWriteCore
  dsimp only
  repeat' split
  all_goals simp

theorem storeReadCore_calls (ps : List Byte) (s : State) :
    (storeReadCore ps s).1.pos = s.pos ∧ (storeReadCore ps s).1.prog = s.prog := by
  unfold storeReadCore
  dsimp only
  repeat' split
  all_goals simp

theorem forceClockFailCore_calls (ps : List Byte) (s : State) :
    (forceClockFailCore ps s).1.pos = s.pos ∧ (forceClockFailCore ps s).1.prog = s.prog := by
  unfold forceClockFailCore
  dsimp only
  repeat' split
  all_goals simp

theorem saveDirectoryCore_calls (s : State) :
    (saveDirectoryCore s).1.pos = s.pos ∧ (saveDirectoryCore s).1.prog = s.prog := by
  unfold saveDirectoryCore
  split <;> simp

theorem ackClockFailCore_calls (s : State) :
    (ackClockFailCore s).1.pos = s.pos ∧ (ackClockFailCore s).1.prog = s.prog := by
  unfold ackClockFailCore
  split <;> simp

theorem fetchNoticesCore_calls (ps : List Byte) (r : Role) (s : State) :
    (fetchNoticesCore ps r s).1.pos = s.pos ∧ (fetchNoticesCore ps r s).1.prog = s.prog := by
  unfold fetchNoticesCore
  dsimp only
  split <;> simp

theorem readCore_calls (limit : Nat) (record : State → Nat → List Byte) (ps : List Byte) (s : State) :
    (readCore limit record ps s).1.pos = s.pos ∧ (readCore limit record ps s).1.prog = s.prog := by
  unfold readCore
  split <;> simp

/-- Every command of Table 12-1 is a chain of moves. -/
theorem handlers_move : ∀ h ∈ handlers, ∀ (st : Station) (ps : List Byte) (s : State), CallMoves s (h.take st ps s) := by
  simp only [handlers, List.forall_mem_cons]
  exact
    ⟨fun _ ps => .takeFrame fun _ => connectCore_moves ps,
     fun _ ps => .takeFrame fun _ => holdCore_moves ps,
     fun _ ps => .takeFrame fun _ => resumeCore_moves ps,
     fun _ ps => .takeFrame fun _ => releaseCore_moves ps,
     fun _ ps => .takeFrame fun _ => muteCore_moves ps,
     fun _ ps => .takeFrame fun _ => setCallGainsCore_moves ps,
     fun _ ps => .takeFrame fun _ => setSidetoneCore_moves ps,
     fun _ ps => .takeFrame fun _ => monitorCore_moves ps,
     fun _ ps => .takeFrame fun _ => unmonitorCore_moves ps,
     fun _ ps => .takeQuiet fun _ => whisperPromptCore_calls ps,
     fun _ ps => .takeQuiet fun _ => clearWhispersCore_calls ps,
     fun _ ps => .takeQuiet fun _ => setEcCore_calls ps,
     fun _ ps => .takeQuiet fun _ => resetEcCore_calls ps,
     fun _ ps => .takeQuiet fun _ => setLevelsCore_calls ps,
     fun _ ps => .takeQuiet fun _ => setNeighboursCore_calls ps,
     fun _ ps => .takeQuiet fun _ => clipLoadCore_calls ps,
     fun _ ps => .takeQuiet fun _ => clipDeleteCore_calls ps,
     fun _ ps => .takeFrame fun _ => setProgrammeCore_moves ps,
     fun _ ps => .takeQuiet fun _ => callerPromptCore_calls ps,
     fun _ ps => .takeQuiet fun _ => stopPromptCore_calls ps,
     fun _ ps => .takeQuiet fun _ => storeEraseCore_calls ps,
     fun _ ps => .takeQuiet fun _ => storeWriteCore_calls ps,
     fun _ ps => .takeQuiet fun _ => storeReadCore_calls ps,
     fun _ _ => .takeQuiet fun _ => saveDirectoryCore_calls,
     fun _ ps => .takeFrame fun _ => setGraceCore_moves ps,
     fun _ ps => .takeQuiet fun _ => forceClockFailCore_calls ps,
     fun _ _ => .takeQuiet fun _ => ackClockFailCore_calls,
     fun _ ps => .takeQuiet fun _ => readCore_calls 16 State.positionRecord ps,
     fun _ ps => .takeQuiet fun _ => readCore_calls 24 State.streamRecord ps,
     fun _ ps => .takeQuiet fun _ => readCore_calls 128 State.clipRecord ps,
     fun _ _ => .takeQuiet fun _ _ => ⟨rfl, rfl⟩,
     fun _ _ => .takeQuiet fun _ _ => ⟨rfl, rfl⟩,
     fun _ ps => .takeQuiet fun r => fetchNoticesCore_calls ps r,
     by simp⟩

theorem takeBody_moves (st : Station) (body : List Byte) (s : State) : CallMoves s (takeBody st body s) := by
  unfold takeBody
  split
  · exact unknownCommand_moves st [] s
  · split
    next h hh => exact handlers_move h (List.mem_of_find?_eq_some hh) st _ s
    next => exact unknownCommand_moves st _ s

/-! ### The receiver -/

theorem characterArrives_moves (ch : BitVec 12) (low : Nat) (s : State) : CallMoves s (characterArrives ch low s) := by
  rcases characterArrives_cases ch low s with ⟨_, h⟩ | ⟨_, _, h⟩ | ⟨_, _, _, h⟩ | ⟨_, _, _, h⟩
  · rw [h]; exact .of_fields rfl rfl
  · rw [h]
    have hheard : CallMoves s (s.modPort (Port.heard ch low)) := .of_fields rfl rfl
    refine hheard.trans ?_
    generalize s.modPort (Port.heard ch low) = t
    unfold takeCharacter
    dsimp only
    split
    · exact .of_fields rfl rfl
    · split
      · exact .refl
      · exact .of_fields rfl rfl
      · exact .of_fields rfl rfl
      · unfold takeCheck
        split
        · split
          · exact takeBody_moves _ _ t
          · exact .of_fields rfl rfl
        · exact .of_fields rfl rfl
  · rw [h]; exact .of_fields rfl rfl
  · rw [h]; exact .of_fields rfl rfl

theorem goodCharacter_moves (ch : BitVec 12) (w : CharacterTime) (s : State) : CallMoves s (goodCharacter ch w s) := by
  cases w with
  | begins low =>
    rcases characterBegins_cases ch low s with ⟨_, _, h⟩ | ⟨_, h⟩
    · exact .of_fields (by simp [goodCharacter, h]) (by simp [goodCharacter, h])
    · exact .of_fields (by simp [goodCharacter, h]) (by simp [goodCharacter, h])
  | ended low =>
    show CallMoves s (characterEnds ch low s)
    unfold characterEnds
    split
    · exact (characterArrives_moves ch 0 s).then_fields rfl rfl
    · exact characterArrives_moves ch low s

theorem frameAbandoned_moves (why : AbandonCause) (s : State) : CallMoves s (frameAbandoned why s) := by
  unfold frameAbandoned
  split
  · exact characterArrives_moves ..
  · exact .refl

/-! ### Rows and steps -/

/-- A row that is a command frame does what the receiver does with the frame's body, or it is a frame that names no
command (R188). -/
theorem exec_frame (c : Instr) (st : Station) (body : List Byte) (s : State) (h : frameBody c = some (st, body)) :
    exec c s = .next (takeBody st body s) ∨ exec c s = .next (unknownCommand st body s) := by
  cases c with
  | unknownCommand => cases h; exact .inr rfl
  | _ => cases h <;> exact .inl rfl

/-- The rows of the start-up load and of the Control Link's replies touch no position record and no programme. -/
theorem startupStoreReady_calls (s : State) :
    (startupStoreReady s).pos = s.pos ∧ (startupStoreReady s).prog = s.prog := by
  unfold startupStoreReady
  split <;> simp

theorem startupNoStore_calls (s : State) : (startupNoStore s).pos = s.pos ∧ (startupNoStore s).prog = s.prog := by
  unfold startupNoStore
  split <;> simp

theorem receiverIdleTimeout_calls (s : State) :
    (receiverIdleTimeout s).pos = s.pos ∧ (receiverIdleTimeout s).prog = s.prog := by
  unfold receiverIdleTimeout
  split <;> simp

theorem replyStart_calls (s : State) : (replyStart s).pos = s.pos ∧ (replyStart s).prog = s.prog := by
  rcases replyStart_cases s with ⟨_, _, _, _, h⟩ | ⟨_, h⟩ <;> simp [h]

theorem replyDrop_calls (s : State) : (replyDrop s).pos = s.pos ∧ (replyDrop s).prog = s.prog := by
  unfold replyDrop
  repeat' split
  all_goals simp

theorem replyCollision_calls (s : State) : (replyCollision s).pos = s.pos ∧ (replyCollision s).prog = s.prog := by
  unfold replyCollision
  split <;> simp

theorem replyEnd_calls (s : State) : (replyEnd s).pos = s.pos ∧ (replyEnd s).prog = s.prog := by
  unfold replyEnd
  split <;> simp

/-- Every row is a chain of moves of the calls. -/
theorem exec_moves (c : Instr) (s t : State) (h : exec c s = .next t) : CallMoves s t := by
  have quiet {u : State} (h : u.pos = s.pos ∧ u.prog = s.prog) : CallMoves s u := .of_fields h.1 h.2
  cases hb : frameBody c with
  | some frame =>
    rcases exec_frame c frame.1 frame.2 s hb with hc | hc
    all_goals
      rw [hc] at h
      cases h
    · exact takeBody_moves ..
    · exact unknownCommand_moves ..
  | none =>
    cases c with
    | deviceReset straps => cases h; exact .single (.reset rfl rfl)
    | startupStoreReady => cases h; exact quiet (startupStoreReady_calls s)
    | startupNoStore => cases h; exact quiet (startupNoStore_calls s)
    | startupLoadEnd dir => cases h; exact .of_stand (startupLoadEnd_stand dir s)
    | frameBoundary => cases h; exact frameBoundary_moves s
    | blockBoundary => cases h; exact blockBoundary_moves s
    | graceTimerExpiry => cases h; exact graceTimerExpiry_moves s
    | lineSync rx => cases h; exact lineSync_moves rx s
    | acquisitionTimeout => cases h; exact .of_fields (by simp) (by simp)
    | clockFail => cases h; exact clockFail_moves s
    | headsetWordArrival p w => cases h; exact headsetWordArrival_moves p.val w s
    | fetchGrant => cases h; exact .of_fields (by simp) (by simp)
    | fetchArrival bytes => cases h; exact .of_stand (fetchArrival_stand bytes s)
    | fetchTimeout => cases h; exact .of_fields (by simp) (by simp)
    | operationStepStart => cases h; exact .of_fields (by simp) (by simp)
    | stepStoreReady => cases h; exact .of_fields (by simp) (by simp)
    | eraseDone => cases h; exact .of_fields (by simp) (by simp)
    | eraseTimeout => cases h; exact .of_fields (by simp) (by simp)
    | suspendTimeout => cases h; exact .of_fields (by simp) (by simp)
    | eraseResume => cases h; exact .of_fields (by simp) (by simp)
    | programDone => cases h; exact .of_fields (by simp) (by simp)
    | programTimeout => cases h; exact .of_fields (by simp) (by simp)
    | storeReadServe => cases h; exact .of_fields (by simp) (by simp)
    | storeReadComplete bytes => cases h; exact .of_fields (by simp) (by simp)
    | storeReadAbandon => cases h; exact .of_fields (by simp) (by simp)
    | receiverIdleTimeout => cases h; exact quiet (receiverIdleTimeout_calls s)
    | frameAbandoned why => cases h; exact frameAbandoned_moves why s
    | goodCharacter ch w => cases h; exact goodCharacter_moves ch w s
    | linkBreak => cases h; exact .of_fields rfl rfl
    | replyStart => cases h; exact quiet (replyStart_calls s)
    | replyDrop => cases h; exact quiet (replyDrop_calls s)
    | replyCollision => cases h; exact quiet (replyCollision_calls s)
    | replyEnd => cases h; exact quiet (replyEnd_calls s)
    | resetPinHeld => cases h; exact .of_fields rfl rfl
    | _ => cases hb

/-- Every step is a chain of moves of the calls. -/
theorem step_moves (s t : State) (h : step s = .next t) : CallMoves s t :=
  step_kept (CallMoves s) (fun _ _ h => h.then_fields rfl rfl) (fun c _ u h hc => h.trans (exec_moves c _ u hc))
    (fun _ h => h.then_fields rfl rfl) s t .refl h

end Sys2Proof.Machine

/-! ### The statements -/

section
open Sys2Proof.Machine

/-- Settles O50: each kind of move keeps the mutes, the record's form, and with it the listener counts. -/
theorem recordsAndListenersStayConsistent : Obligations.RecordsAndListenersStayConsistent := by
  intro s t _ hs hstep
  refine (step_moves s t hstep).keep (P := fun s => MuteLaw s ∧ RecordLaw s ∧ ListenerLaw s) ?_ hs
  rintro s t ⟨hmute, hrecord, hlisteners⟩ hmove
  exact ⟨hmute.move hmove, hrecord.move hmove, hlisteners.move hrecord hmove⟩

/-- Settles O51: a move binds at most one position, and to a send timeslot that no other position is bound to (R6). -/
theorem sendTimeslotsStayDistinct : Obligations.SendTimeslotsStayDistinct :=
  fun s t _ hs hstep => (step_moves s t hstep).keep (fun _ _ h hmove => h.move hmove) hs

/-- Settles O52: a move writes or ends both records of a relation, and a related position changes between FREE and a call
only with its relation. -/
theorem relationsStayPaired : Obligations.RelationsStayPaired :=
  fun s t _ hs hstep => (step_moves s t hstep).keep (fun _ _ h hmove => h.move hmove) hs

end
end

section
/-! SUPPORT. What a frame of the call role does: the fields of its body, and its meaning where the part heeds it. -/

namespace Sys2Proof.Machine

/-! ### Fields -/

theorem field1_toByte (v : Nat) (bs : List Byte) (h : v < 256) : field1 (toByte v :: bs) 0 = v := toByte_toNat v h

theorem field2_toByte (v : Nat) (bs : List Byte) (h : v < 65536) :
    field2 (toByte (v / 256) :: toByte v :: bs) 0 = v := by
  simp only [field2, field1_zero, field1_succ, toByte, BitVec.toNat_ofNat]
  omega

theorem field2_succ (b : Byte) (bs : List Byte) (i : Nat) : field2 (b :: bs) (i + 1) = field2 bs i := rfl

theorem clampTo_eq_min (m v : Nat) : clampTo m v = min m v := by
  unfold clampTo
  split <;> omega

/-! ### Frames that the part heeds -/

/-- A command that its block answers owes that answer on the state that it leaves (R189). -/
theorem heeded_answer {st : Station} {r : Role} {code : Byte} {fits starting : Bool} {core : Role → State → State × Answer}
    {s t : State} {a : Answer} (h : s.heeds st r) (hfits : fits = true) (hcore : core r s.accepted = (t, a)) :
    (.next (takeFrame st code [r] fits starting core s) : Host.Outcome State Fault Refusal) = .next (t.owe st code a) := by
  rw [takeFrame_taken st code [r] fits starting core s r h.1 (by simp) hfits (.inl h.2), hcore]

/-- A command that its block refuses changes nothing but the reply owed (R189). -/
theorem heeded_refusal {st : Station} {r : Role} {code : Byte} {fits starting : Bool}
    {core : Role → State → State × Answer} {s : State} {status : Status} (h : s.heeds st r) (hfits : fits = true)
    (hcore : core r s.accepted = (s.accepted, .bare status)) :
    .next (takeFrame st code [r] fits starting core s) = s.refuses st code status :=
  heeded_answer h hfits hcore

/-! ### The send timeslot -/

theorem txTaken_iff (s : State) (p tx : Nat) :
    s.txTaken p tx = true ↔ ∃ q b, q < 16 ∧ q ≠ p ∧ (s.posAt q).binding = some b ∧ b.tx = tx := by
  simp only [State.txTaken, List.any_eq_true, List.mem_range, Bool.and_eq_true, bne_iff_ne, beq_iff_eq,
    Option.map_eq_some_iff]
  constructor
  · rintro ⟨q, hq, hne, b, hb, htx⟩; exact ⟨q, b, hq, hne, hb, htx⟩
  · rintro ⟨q, b, hq, hne, hb, htx⟩; exact ⟨q, hq, hne, b, hb, htx⟩

theorem accepted_txTaken (s : State) (p tx : Nat) : s.accepted.txTaken p tx = s.txTaken p tx := rfl
theorem accepted_agentOf (s : State) (p : Nat) : s.accepted.agentOf p = s.agentOf p := rfl

theorem agentOf_none {s : State} {p : Nat} (h : ∀ r, (s.posAt p).relation = some r → r.form ≠ .monitoring) :
    s.agentOf p = none := by
  rw [Option.eq_none_iff_forall_ne_some]
  intro a ha
  obtain ⟨r, hr, hform, _⟩ := (agentOf_eq_some s p a).1 ha
  exact h r hr hform

end Sys2Proof.Machine

open Sys2Proof Sys2Proof.Machine

/-- Settles O10: past its three checks CONNECT sets up the call, after the relation of a supervisor. -/
theorem connectSetsUpTheCall : Obligations.ConnectSetsUpTheCall := by
  intro st p rx tx s hs hp hrx htx hcall hfree
  have htaken : s.txTaken p tx = false := by
    rw [Bool.eq_false_iff, Ne, txTaken_iff]
    rintro ⟨q, b, hq, hne, hb, rfl⟩
    exact hfree q hq hne b hb rfl
  have hin : ¬ (15 < p ∨ 31 < rx ∨ 31 < tx) := by omega
  have hcore : connectCore [toByte p, toByte rx, toByte tx] s.accepted = (connectTaken p rx tx s.accepted, .done) := by
    simp only [connectCore, field1_succ, field1_toByte p _ (by omega : p < 256), field1_toByte rx _ (by omega : rx < 256),
      field1_toByte tx _ (by omega : tx < 256), State.accepted_posAt, hcall, accepted_txTaken, htaken, if_neg hin]
    rfl
  have hexec : exec (.connect st [toByte p, toByte rx, toByte tx]) s =
      .next ((connectTaken p rx tx s.accepted).owe st 0x10 { status := .done }) := heeded_answer hs rfl hcore
  refine ⟨fun hr => ?_, fun r hr hform => ?_⟩
  · rw [hexec, connectTaken, accepted_agentOf, agentOf_none hr]
  · rw [hexec, connectTaken, accepted_agentOf, (agentOf_eq_some s p _).2 ⟨r, hr, hform, rfl⟩]
    rfl

/-- Settles O11: each call command's checks in their order, on the accepted frame. -/
theorem callCommandsAreRefusedInOrder : Obligations.CallCommandsAreRefusedInOrder := by
  intro st p k rx tx s hp hk hrx htx
  have hconnect (status : Status) (hs : s.heeds st .call)
      (hcore : connectCore [toByte p, toByte rx, toByte tx] s.accepted = (s.accepted, .bare status)) :
      exec (.connect st [toByte p, toByte rx, toByte tx]) s = s.refuses st 0x10 status := heeded_refusal hs rfl hcore
  have hhold (status : Status) (hs : s.heeds st .call)
      (hcore : holdCore [toByte p, toByte k] s.accepted = (s.accepted, .bare status)) :
      exec (.hold st [toByte p, toByte k]) s = s.refuses st 0x11 status := heeded_refusal hs rfl hcore
  have hresume (status : Status) (hs : s.heeds st .call)
      (hcore : resumeCore [toByte p] s.accepted = (s.accepted, .bare status)) :
      exec (.resume st [toByte p]) s = s.refuses st 0x12 status := heeded_refusal hs rfl hcore
  have hrelease (status : Status) (hs : s.heeds st .call)
      (hcore : releaseCore [toByte p] s.accepted = (s.accepted, .bare status)) :
      exec (.release st [toByte p]) s = s.refuses st 0x13 status := heeded_refusal hs rfl hcore
  simp only [connectCore, holdCore, resumeCore, releaseCore, field1_succ, field1_toByte p _ hp, field1_toByte k _ hk,
    field1_toByte rx _ hrx, field1_toByte tx _ htx, State.accepted_posAt, accepted_txTaken]
    at hconnect hhold hresume hrelease
  refine ⟨fun hs => ⟨?_, ?_, ?_, ?_, ?_, ?_, ?_, ?_, ?_, ?_, ?_⟩, fun hs hout a b => ?_⟩
  · exact fun h => hconnect _ hs (if_pos h)
  · exact fun h1 h2 h3 hcall => hconnect _ hs ((if_neg (by omega)).trans (if_pos hcall))
  · intro h1 h2 h3 hcall q b hq hne hb htx
    have htaken : s.txTaken p tx = true := (txTaken_iff s p tx).2 ⟨q, b, hq, hne, hb, htx⟩
    exact hconnect _ hs ((if_neg (by omega)).trans ((if_neg (by simp [hcall])).trans (if_pos htaken)))
  · exact fun h => hhold _ hs (if_pos h)
  · exact fun h1 h2 hcall => hhold _ hs ((if_neg (by omega)).trans (by rw [hcall]))
  · exact fun h => hresume _ hs (if_pos h)
  · exact fun h1 hcall => hresume _ hs ((if_neg (by omega)).trans (by rw [hcall]))
  · exact fun h => hrelease _ hs (if_pos h)
  · exact fun h1 hcall => hrelease _ hs ((if_neg (by omega)).trans (if_pos hcall))
  · refine fun h => heeded_refusal hs rfl ?_
    simp only [muteCore, field1_succ, field1_toByte p _ hp, field1_toByte k _ hk, h, if_true]
  · refine fun h a b c d => heeded_refusal hs rfl ?_
    simp only [setCallGainsCore, field1_toByte p _ hp, h, if_true]
  · refine heeded_refusal hs rfl ?_
    simp only [setSidetoneCore, field1_toByte p _ hp, hout, if_true]

/-- Settles O12: HOLD and RESUME by the call state of the record. -/
theorem holdAndResumeMoveTheListener : Obligations.HoldAndResumeMoveTheListener := by
  intro st p k s hs hp hk
  have hhold (t : State) (hcore : holdCore [toByte p, toByte k] s.accepted = (t, .done)) :
      exec (.hold st [toByte p, toByte k]) s = .next (t.owe st 0x11 { status := .done }) :=
    heeded_answer hs rfl hcore
  have hresume (t : State) (hcore : resumeCore [toByte p] s.accepted = (t, .done)) :
      exec (.resume st [toByte p]) s = .next (t.owe st 0x12 { status := .done }) :=
    heeded_answer hs rfl hcore
  have hin : ¬ 15 < p := by omega
  have hin' : ¬ (15 < p ∨ 3 < k) := by omega
  simp only [holdCore, resumeCore, field1_succ, field1_toByte p _ (by omega : p < 256),
    field1_toByte k _ (by omega : k < 256), State.accepted_posAt, if_neg hin, if_neg hin'] at hhold hresume
  refine ⟨fun hcall => ?_, fun j hcall hj => ?_⟩
  · exact ⟨hhold _ (by rw [hcall]), hresume _ (by rw [hcall])⟩
  · simp only [hcall, hj] at hhold hresume
    exact ⟨fun hjk => hhold _ (by simp [hjk]), fun hjk => hhold _ (by simp [hjk]), hresume _ rfl⟩

/-- Settles O16: MUTE with the effective mute, and the two gain commands with their clamp. -/
theorem muteAndGainsAreStored : Obligations.MuteAndGainsAreStored := by
  intro st p f rx tx s hp hrx htx
  have hin : ¬ 15 < p := by omega
  refine ⟨fun hs hf => ?_, fun hs => ?_, fun hs => ?_⟩
  · have hin' : ¬ (15 < p ∨ 1 < f) := by omega
    refine heeded_answer hs rfl ?_
    simp only [muteCore, field1_succ, field1_toByte p _ (by omega : p < 256), field1_toByte f _ (by omega : f < 256),
      if_neg hin']
    rfl
  · refine heeded_answer hs rfl ?_
    simp only [setCallGainsCore, field1_toByte p _ (by omega : p < 256), field2_succ, field2_toByte rx _ hrx,
      field2_toByte tx _ htx, if_neg hin, clampTo_eq_min, Answer.clampedDone, Config.gainMost, Bool.decide_or]
  · refine heeded_answer hs rfl ?_
    simp only [setSidetoneCore, field1_toByte p _ (by omega : p < 256), field2_succ, field2_toByte rx _ hrx, if_neg hin,
      clampTo_eq_min, Answer.clampedDone, Config.gainMost]

end

section
/-! SUPPORT. The part right after device reset: each entry of its tables, and each law of Safety.lean. -/

namespace Sys2Proof.Machine

/-! ### Entries at reset -/

theorem reset_posAt (p : Nat) (hp : p < 16) : State.reset.posAt p = Position.reset := tget_replicate p _ hp
theorem reset_linkAt (p : Nat) (hp : p < 16) : State.reset.linkAt p = Link.reset := tget_replicate p _ hp
theorem reset_ecAt (p : Nat) (hp : p < 16) : State.reset.ecAt p = Canceller.reset := tget_replicate p _ hp
theorem reset_segAt (g : Nat) (hg : g < 64) : State.reset.segAt g = Segment.free := tget_replicate g _ hg
theorem reset_segsOf (p : Nat) (hp : p < 16) : State.reset.segsOf p = [] := tget_replicate p _ hp
theorem reset_levAt (p : Nat) (hp : p < 16) : State.reset.levAt p = Level.reset := tget_replicate p _ hp
theorem reset_mixAt (p : Nat) (hp : p < 16) : State.reset.mixAt p = Mix.reset := tget_replicate p _ hp
theorem reset_clipAt (c : Nat) (hc : c < 128) : State.reset.clipAt c = Clip.empty := tget_replicate c _ hc
theorem reset_progAt (k : Nat) (hk : k < 4) : State.reset.progAt k = Programme.reset := tget_replicate k _ hk
theorem reset_queueAt (p : Nat) (hp : p < 16) : State.reset.queueAt p = [] := tget_replicate p _ hp

/-- S0 to S3 stand for their programmes, and the general slots for none (R117). -/
theorem reset_slotAt (i : Nat) (hi : i < 24) : State.reset.slotAt i = Slot.fresh i := by
  have hgeneral (hi4 : 4 ≤ i) : Slot.fresh 4 = Slot.fresh i := by
    have : ¬ i < 4 := by omega
    simp [Slot.fresh, this]
  show tget slotsReset i = _
  simp only [slotsReset, tget_tset]
  by_cases h3 : 3 = i
  · simp [← h3]
  by_cases h2 : 2 = i
  · simp [← h2]
  by_cases h1 : 1 = i
  · simp [← h1]
  by_cases h0 : 0 = i
  · simp [← h0]
  · simp only [h3, h2, h1, h0, false_and, if_false, tget_replicate i _ hi]
    exact hgeneral (by omega)

theorem reset_slot_idle (i : Nat) (hi : i < 24) : (State.reset.slotAt i).state = .idle := by
  rw [reset_slotAt i hi]; rfl

theorem reset_freeCount : State.reset.freeCount = 64 := by
  unfold State.freeCount
  rw [List.filter_eq_self.2 fun g hg => by rw [reset_segAt g (by simpa using hg)]; rfl]
  rfl

/-- No stream plays at reset. -/
theorem reset_playing (c : Nat) : State.reset.playing c = 0 := by
  unfold State.playing
  rw [List.length_eq_zero_iff, List.filter_eq_nil_iff]
  intro i hi
  simp [reset_slot_idle i (by simpa using hi)]

/-! ### The laws at reset -/

theorem reset_muteLaw : MuteLaw State.reset := fun p hp => by
  rw [reset_posAt p hp]; exact ⟨rfl, Nat.le_refl 40⟩

theorem reset_recordLaw : RecordLaw State.reset := fun p hp => by
  rw [reset_posAt p hp]; simp [Position.reset]

theorem reset_sendLaw : SendLaw State.reset := by
  intro p hp q hq hpq b c hb hc
  rw [reset_posAt p hp] at hb
  cases hb

theorem reset_relationLaw : RelationLaw State.reset := by
  intro p hp r hr
  rw [reset_posAt p hp] at hr
  cases hr

theorem reset_whisperLaw : WhisperLaw State.reset := fun p hp => by
  rw [reset_queueAt p hp]; simp

theorem reset_slotLaw : SlotLaw State.reset := by
  refine ⟨fun i hi => ?_, fun i _ hi h => absurd (reset_slot_idle i hi) h, fun i hi _ _ _ _ h => ?_, List.nodup_nil,
    fun p hp => absurd hp List.not_mem_nil, fun h => absurd rfl h⟩
  · rw [reset_slotAt i (by omega)]; simp [Slot.fresh, hi]
  · exact absurd (reset_slot_idle i hi) h.1

theorem reset_listenerLaw : ListenerLaw State.reset := by
  rw [listenerLaw_iff]
  intro k hk
  rw [State.listenersOf, reset_progAt k hk, eq_comm]
  exact List.countP_eq_zero.2 fun p hp => by simp [reset_posAt p (by simpa using hp), Position.reset]

theorem reset_catalogueLaw : CatalogueLaw State.reset := by
  refine ⟨fun c hc => ?_, fun k hk c h => ?_⟩
  · rw [reset_clipAt c hc, reset_playing]; simp [Clip.empty]
  · rw [reset_progAt k hk] at h; cases h

theorem reset_fenceLaw : FenceLaw State.reset := by
  refine ⟨fun c hc => ?_, by simp [State.reset, Store.reset], fun _ => ⟨rfl, fun c hc => ?_⟩⟩
  · rw [reset_clipAt c hc]; exact ⟨rfl, fun h => by cases h⟩
  · rw [reset_clipAt c hc]; rfl

theorem reset_poolLaw : PoolLaw State.reset := by
  refine ⟨fun p hp => ?_, fun g hg => ⟨fun p => ?_, fun _ => ?_⟩, fun p hp => absurd hp List.not_mem_nil⟩
  · rw [reset_segsOf p hp]; simp
  · rw [reset_segAt g hg]
    constructor
    · intro h; cases h
    · rintro ⟨hp, hmem⟩; rw [reset_segsOf p hp] at hmem; cases hmem
  · rw [reset_segAt g hg]; rfl

theorem reset_shortfallLaw : ShortfallLaw State.reset := by
  refine ⟨List.nodup_nil, fun h => absurd rfl h, fun p hp => ?_⟩
  rw [State.granted, reset_segsOf p hp, reset_linkAt p hp, reset_ecAt p hp]
  exact ⟨⟨fun h => absurd h List.not_mem_nil, fun h => absurd h.1 (by decide)⟩, Nat.zero_le _, by decide, fun _ => rfl⟩

theorem fits16_zero : Fits16 0 := by unfold Fits16; omega

theorem reset_cancellerLaw : CancellerLaw State.reset := by
  refine ⟨fun p hp => ?_, fun g hg => ?_⟩
  · rw [reset_ecAt p hp]
    refine ⟨List.length_replicate, fun x hx => ?_, fits16_zero, by decide, by decide, by decide, by decide, by decide,
      by decide⟩
    rw [List.eq_of_mem_replicate hx]; exact fits16_zero
  · rw [reset_segAt g hg]
    refine ⟨List.length_replicate, fun a ha => ?_⟩
    rw [List.eq_of_mem_replicate ha]; decide

theorem reset_powerLaw : PowerLaw State.reset := by
  intro p hp h
  rw [reset_ecAt p hp] at h
  exact absurd rfl h

theorem reset_linkLaw : LinkLaw State.reset := fun p hp => by
  rw [reset_linkAt p hp]; simp [Link.reset, fits16_zero]

theorem reset_levelLaw : LevelLaw State.reset := by
  refine ⟨by decide, fun p hp => ?_⟩
  rw [reset_levAt p hp]
  simp [Level.reset, State.reset, LevelParams.reset]

theorem reset_totalsLaw : TotalsLaw State.reset := by
  refine ⟨by decide, by decide, by decide, fun p hp => ?_⟩
  rw [reset_levAt p hp, reset_mixAt p hp]
  simp [Level.reset, Mix.reset]

theorem reset_noticesOf (r : Role) : State.reset.noticesOf r = NoticeQueue.reset := by cases r <;> rfl

theorem reset_noticeLaw : NoticeLaw State.reset := fun r => by
  rw [reset_noticesOf]; simp [NoticeQueue.reset]

theorem reset_timingLaw : TimingLaw State.reset := by simp [TimingLaw, State.reset, Timing.reset]

theorem reset_storeLinkLaw : StoreLinkLaw State.reset := ⟨rfl, rfl, .inl rfl⟩

theorem reset_fetchLaw : FetchLaw State.reset := by
  refine ⟨fun f hf => (by cases hf), fun i hi => ?_⟩
  rw [reset_slotAt i hi]; simp [Slot.fresh]

end Sys2Proof.Machine

open Sys2Proof Sys2Proof.Machine

/-- Settles O49: the laws of Safety.lean one by one. -/
theorem resetIsSound : Obligations.ResetIsSound :=
  ⟨⟨reset_muteLaw, reset_recordLaw, reset_sendLaw, reset_relationLaw, reset_whisperLaw, reset_slotLaw, reset_listenerLaw,
    reset_catalogueLaw, reset_fenceLaw, reset_poolLaw, reset_shortfallLaw, reset_cancellerLaw, reset_powerLaw,
    reset_linkLaw, reset_levelLaw, reset_totalsLaw, reset_noticeLaw, reset_timingLaw, reset_storeLinkLaw,
    reset_fetchLaw⟩, rfl⟩

/-- Settles O3: the tables of a reset part entry by entry; the held pin's three outputs; and no reply begins. -/
theorem deviceResetAndHeldPin : Obligations.DeviceResetAndHeldPin := by
  refine ⟨fun straps s => ⟨deviceReset straps s, rfl, rfl, rfl, rfl, rfl, reset_posAt, fun p hp => ?_, fun p hp => ?_,
      reset_segAt, reset_segsOf, rfl, reset_freeCount, reset_levAt, rfl, fun p hp => ?_, reset_clipAt, reset_slotAt,
      reset_progAt, reset_queueAt, rfl, rfl, rfl, rfl, rfl, rfl, rfl, rfl, rfl, rfl, rfl, rfl, rfl, rfl, rfl, rfl, rfl,
      rfl, rfl, rfl, rfl, rfl, rfl, rfl, rfl, fun r => by cases r <;> rfl⟩,
    fun s => ⟨resetPinHeld s, rfl, rfl, fun r => by cases r <;> rfl⟩, fun s hs => ?_⟩
  · rw [show (deviceReset straps s).linkAt p = Link.reset from reset_linkAt p hp]
    exact ⟨rfl, rfl, rfl, rfl, rfl, rfl⟩
  · rw [show (deviceReset straps s).ecAt p = Canceller.reset from reset_ecAt p hp]
    exact ⟨rfl, rfl, rfl, rfl, rfl, rfl, rfl, rfl, rfl⟩
  · rw [show (deviceReset straps s).mixAt p = Mix.reset from reset_mixAt p hp]
    exact ⟨rfl, rfl, rfl, rfl, rfl⟩
  · rcases replyStart_cases s with ⟨_, _, _, hheld, _⟩ | ⟨_, h⟩
    · rw [hs] at hheld; cases hheld
    · exact congrArg Host.Outcome.next h

end

section
/-! SUPPORT. What a teardown makes of each table (R13): the reasoning rules for its steps, and for the whole. -/

namespace Sys2Proof.Machine

/-! ### Stops -/

theorem Slot.stop_sounding (c : Cause) (x : Slot) (h : x.state.sounding = true) :
    x.stop c = { x with state := .stopping, dir := some .falling, cause := some c } := by
  simp [Slot.stop, h]

theorem Slot.stop_idle_iff (c : Cause) (x : Slot) : (x.stop c).state = .idle ↔ x.state = .idle := by
  rcases x.stop_cases c with ⟨h, heq⟩ | ⟨h, _, heq⟩ | ⟨_, heq⟩
  · rw [heq]
    constructor
    · intro h'; cases h'
    · intro h'; rw [h'] at h; cases h
  · rw [heq]
  · rw [heq]

theorem Slot.stop_kind (c : Cause) (x : Slot) : (x.stop c).kind = x.kind := by
  rcases x.stop_cases c with ⟨_, heq⟩ | ⟨_, _, heq⟩ | ⟨_, heq⟩ <;> rw [heq]

theorem Slot.stop_target (c : Cause) (x : Slot) : (x.stop c).target = x.target := by
  rcases x.stop_cases c with ⟨_, heq⟩ | ⟨_, _, heq⟩ | ⟨_, heq⟩ <;> rw [heq]

/-- A slot that has been stopped is not changed by another stop. -/
theorem Slot.stop_stop (c d : Cause) (x : Slot) : (x.stop c).stop d = x.stop c := by
  rcases (x.stop c).stop_cases d with ⟨h, _⟩ | ⟨_, h, _⟩ | ⟨_, heq⟩
  · rcases x.stop_cases c with ⟨_, heq⟩ | ⟨hs, _, heq⟩ | ⟨hs, heq⟩
    · rw [heq] at h; cases h
    · rw [heq] at h; change x.state.sounding = true at h; rw [hs] at h; cases h
    · rw [heq, hs] at h; cases h
  · rcases x.stop_cases c with ⟨_, heq⟩ | ⟨_, _, heq⟩ | ⟨hs, heq⟩
    · rw [heq] at h; cases h
    · rw [heq] at h; cases h
    · simp_all [Slot.stop, StreamState.sounding]
  · exact heq

/-- A slot that is neither IDLE nor STOPPING sounds. -/
theorem StreamState.sounding_eq (st : StreamState) (h : st ≠ .idle) : bit st.sounding = if st = .stopping then 0 else 1 := by
  cases st with
  | idle => exact absurd rfl h
  | _ => rfl

/-- The streams stand where each general slot keeps its kind and its target, and is IDLE or not as before (R41). -/
theorem streamOf_congr {s t : State}
    (h : ∀ i, 4 ≤ i → i < 24 → ((t.slotAt i).state = .idle ↔ (s.slotAt i).state = .idle) ∧
      (t.slotAt i).kind = (s.slotAt i).kind ∧ (t.slotAt i).target = (s.slotAt i).target)
    (k : StreamKind) (p : Nat) : t.streamOf k p = s.streamOf k p := by
  unfold State.streamOf
  refine List.find?_congr fun i hi => ?_
  obtain ⟨hlo, hhi⟩ := (mem_generalSlots i).1 hi
  obtain ⟨hidle, hkind, htarget⟩ := h i hlo hhi
  simp only [ne_eq, hidle, hkind, htarget]

/-! ### The steps of a teardown -/

theorem listenerDown_slotAt (k : Nat) (hk : k < 4) (s : State) (i : Nat) :
    (listenerDown k s).slotAt i =
      if k = i ∧ (s.progAt k).listeners ≤ 1 then (s.slotAt i).stop .noListeners else s.slotAt i := by
  have hcount : ((s.progAt k).listeners - 1 = 0) = ((s.progAt k).listeners ≤ 1) := by simp; omega
  unfold listenerDown stopSlot
  simp only [State.modProg_progAt, hk, and_self, if_true, hcount]
  by_cases hle : (s.progAt k).listeners ≤ 1
  · by_cases hki : k = i
    · subst hki; simp [hle, (by omega : k < 24)]
    · simp [hle, hki]
  · simp [hle]

theorem flushWhispers_slotAt (p : Nat) (s : State) (i : Nat) :
    (flushWhispers p s).slotAt i =
      if s.streamOf .whisper p = some i then (s.slotAt i).stop .flushed else s.slotAt i := by
  have hstream : ((s.setQueue p []).setWait (s.waitList.erase p)).streamOf .whisper p = s.streamOf .whisper p := rfl
  have hpost (t : State) : (if 1 ≤ flushCount p s then
      t.post .floor .whisperFlushed (some p) none none (some (flushCount p s)) else t).slotAt i = t.slotAt i := by
    split <;> simp
  unfold flushWhispers
  dsimp only
  rw [hpost, hstream]
  cases h : s.streamOf .whisper p with
  | none => simp
  | some j =>
    obtain ⟨_, hj, _⟩ := streamOf_some s _ _ _ h
    by_cases hji : j = i
    · subst hji; simp [stopSlot, hj]
    · simp [stopSlot, hji]

theorem stopCaller_slotAt (p : Nat) (c : Cause) (s : State) (i : Nat) :
    (stopCaller p c s).slotAt i =
      if s.streamOf .caller p = some i then (s.slotAt i).stop c else s.slotAt i := by
  unfold stopCaller
  cases h : s.streamOf .caller p with
  | none => simp
  | some j =>
    obtain ⟨_, hj, _⟩ := streamOf_some s _ _ _ h
    by_cases hji : j = i
    · subst hji; simp [stopSlot, hj]
    · simp [stopSlot, hji]

theorem flushWhispers_queueAt (p : Nat) (hp : p < 16) (s : State) (q : Nat) :
    (flushWhispers p s).queueAt q = if q = p then [] else s.queueAt q := by
  unfold flushWhispers
  dsimp only
  have h : ((s.setQueue p []).setWait (s.waitList.erase p)).queueAt q = if q = p then [] else s.queueAt q := by
    simp [hp, eq_comm]
  rw [← h]
  repeat' split
  all_goals simp [stopSlot]

theorem flushWhispers_waitList (p : Nat) (s : State) : (flushWhispers p s).waitList = s.waitList.erase p := by
  unfold flushWhispers
  dsimp only
  repeat' split
  all_goals simp [stopSlot]

/-- The number that a flush reports, as the statements write it (R39). -/
theorem flushCount_eq (p : Nat) (s : State) :
    flushCount p s = (s.queueAt p).length +
      (match s.streamOf .whisper p with
       | some i => if (s.slotAt i).state = .stopping then 0 else 1
       | none => 0) := by
  unfold flushCount
  cases h : s.streamOf .whisper p with
  | none => rfl
  | some i =>
    obtain ⟨_, _, hidle, _⟩ := streamOf_some s _ _ _ h
    exact congrArg _ (StreamState.sounding_eq _ hidle)

theorem flushWhispers_noticesOf (p : Nat) (s : State) (r : Role) :
    (flushWhispers p s).noticesOf r =
      if r = .floor ∧ 1 ≤ flushCount p s then
        (s.noticesOf r).push { kind := .whisperFlushed, position := some p, subject := none, cause := none,
                               value := some (flushCount p s), stamp := s.tmn.blockCount } s.resetHeld
      else s.noticesOf r := by
  have hstop (t : State) (hn : t.noticesOf r = s.noticesOf r) (ht : t.tmn = s.tmn) (hr : t.resetHeld = s.resetHeld) :
      (if 1 ≤ flushCount p s then t.post .floor .whisperFlushed (some p) none none (some (flushCount p s)) else t).noticesOf r
        = if r = .floor ∧ 1 ≤ flushCount p s then
            (s.noticesOf r).push { kind := .whisperFlushed, position := some p, subject := none, cause := none,
                                   value := some (flushCount p s), stamp := s.tmn.blockCount } s.resetHeld
          else s.noticesOf r := by
    by_cases h : 1 ≤ flushCount p s
    · simp only [h, if_true, and_true, State.post_noticesOf, hn, ht, hr, eq_comm]
    · simp only [h, if_false, and_false, hn]
  unfold flushWhispers
  exact hstop _ (by split <;> simp [stopSlot]) (by split <;> simp) (by split <;> simp)

/-- FLOOR's queue after the steps of a teardown of `p` with its cause, where the supervisor is the one given and the
flush reports the given number (R13). -/
def NoticeQueue.tornDown (p : Nat) (c : Cause) (supervisor : Option Nat) (flushed stamp : Nat) (held : Bool)
    (q : NoticeQueue) : NoticeQueue :=
  let ended := match supervisor with
    | some b => q.push { kind := .monitorEnded, position := some p, subject := none, cause := some c, value := some b,
                         stamp := stamp } held
    | none => q
  if 1 ≤ flushed then
    ended.push { kind := .whisperFlushed, position := some p, subject := none, cause := none, value := some flushed,
                 stamp := stamp } held
  else ended

theorem endMonitoring_floor (p : Nat) (c : Cause) (s : State) :
    (endMonitoring p c s).noticesOf .floor =
      (s.noticesOf .floor).tornDown p c (s.supervisorOf p) 0 s.tmn.blockCount s.resetHeld := by
  unfold endMonitoring
  cases s.supervisorOf p with
  | none => rfl
  | some b => rfl

theorem endMonitoring_other (p : Nat) (c : Cause) (s : State) (r : Role) (hr : r ≠ .floor) :
    (endMonitoring p c s).noticesOf r = s.noticesOf r := by
  unfold endMonitoring
  cases s.supervisorOf p with
  | none => rfl
  | some b =>
    cases r with
    | floor => exact absurd rfl hr
    | _ => rfl

/-! ### The whole teardown -/

theorem leaveHold_slotAt {k : Option Nat} (hk : ∀ j, k = some j → j < 4) (s : State) (i : Nat) :
    (leaveHold k s).slotAt i =
      if k = some i ∧ (s.progAt i).listeners ≤ 1 then (s.slotAt i).stop .noListeners else s.slotAt i := by
  cases k with
  | none => simp [leaveHold]
  | some j =>
    rw [leaveHold, listenerDown_slotAt j (hk j rfl)]
    by_cases hji : j = i
    · subst hji; simp
    · simp [hji]

theorem leaveHold_progAt {k : Option Nat} (s : State) (j : Nat) (hj : j < 4) :
    (leaveHold k s).progAt j =
      if k = some j then { s.progAt j with listeners := (s.progAt j).listeners - 1 } else s.progAt j := by
  cases k with
  | none => simp [leaveHold]
  | some i =>
    rw [leaveHold, progAt_congr (listenerDown_prog i s), State.modProg_progAt]
    by_cases hij : i = j
    · subst hij; simp [hj]
    · simp [hij]

theorem flushCount_congr {s t : State} {p : Nat} (hqueue : t.queueAt p = s.queueAt p)
    (hslot : ∀ i, 4 ≤ i → i < 24 → t.slotAt i = s.slotAt i) : flushCount p t = flushCount p s := by
  have hstream : t.streamOf .whisper p = s.streamOf .whisper p :=
    streamOf_congr (fun i hi hi' => by simp [hslot i hi hi']) _ _
  unfold flushCount
  rw [hqueue, hstream]
  cases h : s.streamOf .whisper p with
  | none => rfl
  | some i =>
    obtain ⟨hlo, hhi, _⟩ := streamOf_some s _ _ _ h
    simp only [hslot i hlo hhi]

section
variable (p : Nat) (c : Cause) (s : State)

/-- The state in which the flush of a teardown is taken (R13). -/
def beforeFlush : State := endMonitoring p c (leaveHold (s.posAt p).hold (s.modPos p Position.callEnded))

theorem teardown_eq_flush :
    teardown p c s = (stopCaller p .released (flushWhispers p (beforeFlush p c s))).modPos p Position.unmuted :=
  teardown_eq p c s

variable {p s} (hk : ∀ k, (s.posAt p).hold = some k → k < 4)
include hk

theorem beforeFlush_slotAt (i : Nat) :
    (beforeFlush p c s).slotAt i =
      if (s.posAt p).hold = some i ∧ (s.progAt i).listeners ≤ 1 then (s.slotAt i).stop .noListeners else s.slotAt i := by
  have hend (t : State) : (endMonitoring p c t).slotAt i = t.slotAt i := by simp [State.slotAt]
  rw [beforeFlush, hend, leaveHold_slotAt hk]
  rfl

theorem beforeFlush_slotAt_general (i : Nat) (hi : 4 ≤ i) : (beforeFlush p c s).slotAt i = s.slotAt i := by
  have hne : ¬ (s.posAt p).hold = some i := fun h => by have := hk i h; omega
  rw [beforeFlush_slotAt c hk]
  simp [hne]

theorem beforeFlush_streamOf (k : StreamKind) (q : Nat) : (beforeFlush p c s).streamOf k q = s.streamOf k q :=
  streamOf_congr (fun i hi _ => by simp [beforeFlush_slotAt_general c hk i hi]) k q

omit hk in
theorem beforeFlush_queueAt (q : Nat) : (beforeFlush p c s).queueAt q = s.queueAt q := by
  have hqueue : (beforeFlush p c s).queue = s.queue := by
    simp only [beforeFlush, endMonitoring_keeps]
    cases (s.posAt p).hold <;> simp [leaveHold]
  simp [State.queueAt, hqueue]

theorem beforeFlush_flushCount : flushCount p (beforeFlush p c s) = flushCount p s :=
  flushCount_congr (beforeFlush_queueAt c p) fun i hi _ => beforeFlush_slotAt_general c hk i hi

theorem flushed_streamOf (k : StreamKind) (q : Nat) :
    (flushWhispers p (beforeFlush p c s)).streamOf k q = s.streamOf k q := by
  rw [← beforeFlush_streamOf c hk k q]
  refine streamOf_congr (fun i _ _ => ?_) k q
  rw [flushWhispers_slotAt]
  split
  · exact ⟨Slot.stop_idle_iff _ _, Slot.stop_kind _ _, Slot.stop_target _ _⟩
  · exact ⟨Iff.rfl, rfl, rfl⟩

/-- A position has its whisper stream and its caller stream in two slots. -/
theorem teardown_slotAt (i : Nat) :
    (teardown p c s).slotAt i =
      if s.streamOf .whisper p = some i then (s.slotAt i).stop .flushed
      else if s.streamOf .caller p = some i then (s.slotAt i).stop .released
      else if (s.posAt p).hold = some i ∧ (s.progAt i).listeners ≤ 1 then (s.slotAt i).stop .noListeners
      else s.slotAt i := by
  rw [teardown_eq_flush, State.modPos_slotAt, stopCaller_slotAt, flushWhispers_slotAt, flushed_streamOf c hk,
    beforeFlush_streamOf c hk, beforeFlush_slotAt c hk]
  by_cases hw : s.streamOf .whisper p = some i
  · obtain ⟨hlo, _, _, hkind, _⟩ := streamOf_some s _ _ _ hw
    have hc : ¬ s.streamOf .caller p = some i := fun hc => by
      obtain ⟨_, _, _, hkind', _⟩ := streamOf_some s _ _ _ hc
      rw [hkind] at hkind'; cases hkind'
    have hh : ¬ (s.posAt p).hold = some i := fun h => by have := hk i h; omega
    simp [hw, hc, hh]
  · by_cases hc : s.streamOf .caller p = some i
    · obtain ⟨hlo, _⟩ := streamOf_some s _ _ _ hc
      have hh : ¬ (s.posAt p).hold = some i := fun h => by have := hk i h; omega
      simp [hw, hc, hh]
    · simp [hw, hc]

theorem teardown_floor :
    (teardown p c s).noticesOf .floor =
      (s.noticesOf .floor).tornDown p c (s.supervisorOf p) (flushCount p s) s.tmn.blockCount s.resetHeld := by
  have hleave : (leaveHold (s.posAt p).hold (s.modPos p Position.callEnded)).noticesOf .floor = s.noticesOf .floor ∧
      (leaveHold (s.posAt p).hold (s.modPos p Position.callEnded)).tmn = s.tmn ∧
      (leaveHold (s.posAt p).hold (s.modPos p Position.callEnded)).resetHeld = s.resetHeld := by
    cases (s.posAt p).hold <;> simp [leaveHold, State.noticesOf]
  have hsup : (leaveHold (s.posAt p).hold (s.modPos p Position.callEnded)).supervisorOf p = s.supervisorOf p :=
    supervisorOf_congr (by
      rw [posAt_congr (leaveHold_pos _ _), State.modPos_posAt]
      split <;> rfl)
  have hcaller (t : State) : (stopCaller p .released t).noticesOf .floor = t.noticesOf .floor := by
    simp [State.noticesOf]
  obtain ⟨hnotices, htmn, hheld⟩ := hleave
  rw [teardown_eq_flush, State.modPos_noticesOf, hcaller, flushWhispers_noticesOf, beforeFlush_flushCount c hk]
  simp only [beforeFlush, endMonitoring_floor, endMonitoring_keeps, hsup, hnotices, htmn, hheld, true_and]
  by_cases h : 1 ≤ flushCount p s <;> simp [NoticeQueue.tornDown, h]

theorem teardown_floorQ :
    (teardown p c s).floorQ =
      s.floorQ.tornDown p c (s.supervisorOf p) (flushCount p s) s.tmn.blockCount s.resetHeld := teardown_floor c hk

omit hk in
theorem teardown_other (r : Role) (hr : r ≠ .floor) : (teardown p c s).noticesOf r = s.noticesOf r := by
  have hleave : (leaveHold (s.posAt p).hold (s.modPos p Position.callEnded)).noticesOf r = s.noticesOf r := by
    cases (s.posAt p).hold <;> cases r <;> simp [leaveHold, State.noticesOf]
  have hcaller (t : State) : (stopCaller p .released t).noticesOf r = t.noticesOf r := by
    cases r <;> simp [State.noticesOf]
  rw [teardown_eq_flush, State.modPos_noticesOf, hcaller, flushWhispers_noticesOf, beforeFlush,
    endMonitoring_other _ _ _ r hr, hleave, if_neg (fun h => hr h.1)]

end

theorem teardown_progAt (p : Nat) (c : Cause) (s : State) (k : Nat) (hk : k < 4) :
    (teardown p c s).progAt k =
      if (s.posAt p).hold = some k then { s.progAt k with listeners := (s.progAt k).listeners - 1 } else s.progAt k := by
  rw [progAt_congr (teardown_prog p c s), leaveHold_progAt s k hk]

theorem teardown_queueAt (p : Nat) (hp : p < 16) (c : Cause) (s : State) (q : Nat) :
    (teardown p c s).queueAt q = if q = p then [] else s.queueAt q := by
  have hcaller (t : State) : (stopCaller p .released t).queueAt q = t.queueAt q := by simp [State.queueAt]
  rw [teardown_eq_flush, State.modPos_queueAt, hcaller, flushWhispers_queueAt p hp, beforeFlush_queueAt]

theorem teardown_waitList (p : Nat) (c : Cause) (s : State) : (teardown p c s).waitList = s.waitList.erase p := by
  have hwait : (beforeFlush p c s).waitList = s.waitList := by
    simp only [beforeFlush, endMonitoring_keeps]
    cases (s.posAt p).hold <;> simp [leaveHold]
  rw [teardown_eq_flush, ← hwait, ← flushWhispers_waitList]
  simp

/-- The records after a teardown, under the relation law: that of the position itself, and the relation of its
supervisor (R13). -/
theorem teardown_posAt {p : Nat} (c : Cause) {s : State} (h : RelationLaw s) (hp : p < 16)
    (hcall : (s.posAt p).call ≠ .free) (q : Nat) (hq : q < 16) :
    (teardown p c s).posAt q =
      if q = p then { (s.posAt p).tornDown with relation := none }
      else if s.supervisorOf p = some q then { s.posAt q with relation := none }
      else s.posAt q := by
  rw [posAt_congr (teardown_pos p c s), State.modPos_posAt, endMonitoring_posAt p c s p hp, endMonitoring_posAt p c s q hq]
  by_cases hpq : p = q
  · subst hpq
    cases hs : s.supervisorOf p with
    | none => simp [hp, Position.tornDown, h.inCall hcall hs]
    | some b => simp [hp, Position.tornDown]
  · by_cases hs : s.supervisorOf p = some q
    · simp [hpq, Ne.symm hpq, hs]
    · simp [hpq, Ne.symm hpq, hs]

end Sys2Proof.Machine
end

section
/-! SUPPORT. Two states with the same fields, and the statement of RELEASE. -/

namespace Sys2Proof.Machine

/-- A state that keeps every field but those that calls touch is the old state with those fields. -/
theorem State.eq_of_kept {s t : State} (hpending : t.pending = s.pending) (hmode : t.mode = s.mode)
    (hheld : t.resetHeld = s.resetHeld) (hlink : t.link = s.link) (hec : t.ec = s.ec) (hpool : t.pool = s.pool)
    (hlev : t.lev = s.lev) (hparams : t.params = s.params) (hmix : t.mix = s.mix) (hclip : t.clip = s.clip)
    (hhwy : t.hwy = s.hwy) (hwords : t.words = s.words) (hmaint : t.maintQ = s.maintQ) :
    t = { s with pos := t.pos, slot := t.slot, prog := t.prog, queue := t.queue, waitList := t.waitList,
                 store := t.store, tmn := t.tmn, port := t.port, callQ := t.callQ, floorQ := t.floorQ } := by
  cases t
  simp only at *
  subst_vars
  rfl

theorem accepted_supervisorOf (s : State) (p : Nat) : s.accepted.supervisorOf p = s.supervisorOf p := rfl
theorem accepted_flushCount (s : State) (p : Nat) : flushCount p s.accepted = flushCount p s := rfl
theorem accepted_streamOf (s : State) (k : StreamKind) (p : Nat) : s.accepted.streamOf k p = s.streamOf k p := rfl

end Sys2Proof.Machine

open Sys2Proof Sys2Proof.Machine

/-- What a stop makes of a slot, by the slot's state (R125). -/
theorem stop_by_state (c : Cause) (x : Slot) :
    (x.state = .priming ∨ x.state = .playing ∨ x.state = .ending →
      x.stop c = { x with state := .stopping, dir := some .falling, cause := some c }) ∧
    (x.state = .stopping → x.dir = some .rising →
      x.stop c = { x with dir := some .falling, cause := some .noListeners }) ∧
    (x.state = .idle ∨ (x.state = .stopping ∧ x.dir ≠ some .rising) → x.stop c = x) := by
  refine ⟨fun h => Slot.stop_sounding c x ?_, fun h hdir => ?_, fun h => ?_⟩
  · rcases h with h | h | h <;> rw [h] <;> rfl
  · simp [Slot.stop, StreamState.sounding, h, hdir]
  · rcases h with h | ⟨h, hdir⟩
    · simp [Slot.stop, StreamState.sounding, h]
    · simp [Slot.stop, StreamState.sounding, h, hdir]

/-- Settles O14: RELEASE is a teardown, whose rules say what each table holds. -/
theorem releaseTearsTheCallDown : Obligations.ReleaseTearsTheCallDown := by
  refine ⟨stop_by_state, fun st p s hs hp hcall hrecord hrelation => ?_⟩
  intro flushed
  have hflushed : flushed = flushCount p s := (flushCount_eq p s).symm
  clear_value flushed
  subst hflushed
  have hk : ∀ k, (s.accepted.posAt p).hold = some k → k < 4 := (hrecord p hp).2.2.2
  have hin : ¬ 15 < p := by omega
  have hcore : releaseCore [toByte p] s.accepted = (teardown p .callEnd s.accepted, .done) := by
    simp only [releaseCore, field1_toByte p _ (by omega : p < 256), if_neg hin, State.accepted_posAt, if_neg hcall]
  refine ⟨(teardown p .callEnd s.accepted).owe st 0x13 { status := .done }, heeded_answer hs rfl hcore, ?_, ?_, ?_, ?_, ?_,
    ?_, ?_, ?_, ?_⟩
  · rw [State.owe_posAt, teardown_posAt (s := s.accepted) .callEnd hrelation hp hcall p hp, if_pos rfl,
      State.accepted_posAt, Position.tornDown]
  · intro q hq hne
    rw [State.owe_posAt, teardown_posAt (s := s.accepted) .callEnd hrelation hp hcall q hq, if_neg hne,
      accepted_supervisorOf, State.accepted_posAt]
  · rw [State.owe_queueAt, teardown_queueAt p hp, if_pos rfl]
  · intro q _ hne
    rw [State.owe_queueAt, teardown_queueAt p hp, if_neg hne, State.accepted_queueAt]
  · rw [State.owe_waitList, teardown_waitList, State.accepted_waitList]
  · intro i hi _
    have hne : ¬ (s.posAt p).hold = some i := fun h => by have := hk i h; omega
    rw [State.owe_slotAt, teardown_slotAt .callEnd hk i]
    simp only [State.accepted_posAt, State.accepted_slotAt, accepted_streamOf, hne, false_and, if_false]
  · intro k hk4
    have hnone (kind : StreamKind) : ¬ s.accepted.streamOf kind p = some k := fun h => by
      obtain ⟨hlo, _⟩ := streamOf_some _ _ _ _ h
      omega
    rw [State.owe_progAt, teardown_progAt p .callEnd s.accepted k hk4, State.owe_slotAt,
      teardown_slotAt .callEnd hk k, if_neg (hnone _), if_neg (hnone _)]
    exact ⟨rfl, rfl⟩
  · rw [State.owe_floorQ, teardown_floorQ .callEnd hk, accepted_supervisorOf, accepted_flushCount, State.accepted_floorQ,
      State.accepted_tmn, State.accepted_resetHeld]
    unfold NoticeQueue.tornDown
    cases s.supervisorOf p <;> rfl
  · have hcallQ : (teardown p .callEnd s.accepted).callQ = s.callQ := teardown_other .callEnd .call (by simp)
    have hmaintQ : (teardown p .callEnd s.accepted).maintQ = s.maintQ := teardown_other .callEnd .maint (by simp)
    refine (State.eq_of_kept (s := s) ?_ ?_ ?_ ?_ ?_ ?_ ?_ ?_ ?_ ?_ ?_ ?_ ?_).trans ?_
    all_goals simp [hcallQ, hmaintQ]

end

section
/-! SUPPORT. The forced release (R14): what the teardown of several calls in a row makes of each table. -/

namespace Sys2Proof.Machine

/-- The number of the given positions that are HELD on programme `k` (R132). -/
def State.heldAmong (s : State) (l : List Nat) (k : Nat) : Nat := (l.filter (fun p => (s.posAt p).hold == some k)).length

/-- `u` is `s` after the calls of the positions of `l` have been released with cause LINE_LOSS, in this order (R14). -/
structure Released (s : State) (l : List Nat) (u : State) : Prop where
  relation : RelationLaw u
  waiting : ∀ p, p < 16 → p ∉ l → (s.posAt p).call ≠ .free → u.posAt p = s.posAt p
  torn : ∀ p, p ∈ l → u.posAt p = { (s.posAt p).tornDown with relation := none }
  free : ∀ p, p < 16 → (s.posAt p).call = .free →
    u.posAt p = if ∃ a ∈ l, s.agentOf p = some a then { s.posAt p with relation := none } else s.posAt p
  queue : ∀ p, u.queueAt p = if p ∈ l then [] else s.queueAt p
  waitList : u.waitList = l.foldl (fun w p => w.erase p) s.waitList
  slot : ∀ i, u.slotAt i =
    if l.any (fun p => s.streamOf .whisper p == some i) then (s.slotAt i).stop .flushed
    else if l.any (fun p => s.streamOf .caller p == some i) then (s.slotAt i).stop .released
    else if 0 < s.heldAmong l i ∧ (s.progAt i).listeners ≤ s.heldAmong l i then (s.slotAt i).stop .noListeners
    else s.slotAt i
  prog : ∀ k, k < 4 → u.progAt k = { s.progAt k with listeners := (s.progAt k).listeners - s.heldAmong l k }
  floorQ : u.floorQ = l.foldl (fun q p =>
    q.tornDown p .lineLoss (s.supervisorOf p) (flushCount p s) s.tmn.blockCount s.resetHeld) s.floorQ
  callQ : u.callQ = l.foldl (fun q p =>
    q.push { kind := .callReleased, position := some p, subject := none, cause := some .lineLoss, value := none,
             stamp := s.tmn.blockCount } s.resetHeld) s.callQ
  maintQ : u.maintQ = s.maintQ
  kept : u.pending = s.pending ∧ u.mode = s.mode ∧ u.resetHeld = s.resetHeld ∧ u.link = s.link ∧ u.ec = s.ec ∧
    u.pool = s.pool ∧ u.lev = s.lev ∧ u.params = s.params ∧ u.mix = s.mix ∧ u.clip = s.clip ∧ u.store = s.store ∧
    u.tmn = s.tmn ∧ u.hwy = s.hwy ∧ u.words = s.words ∧ u.port = s.port

/-- The release of one call, with its notice to CALL (R14). -/
def releaseOne (p : Nat) (s : State) : State :=
  (teardown p .lineLoss s).post .call .callReleased (some p) none (some .lineLoss) none

theorem releaseOne_post_other (p : Nat) (s : State) (r : Role) (hr : r ≠ .call) :
    (releaseOne p s).noticesOf r = (teardown p .lineLoss s).noticesOf r := by
  rw [releaseOne, State.post_noticesOf, if_neg (Ne.symm hr)]

theorem Released.refl {s : State} (h : RelationLaw s) : Released s [] s where
  relation := h
  waiting := fun _ _ _ _ => rfl
  torn := fun p hp => absurd hp List.not_mem_nil
  free := fun p _ _ => by simp
  queue := fun p => by simp
  waitList := rfl
  slot := fun i => by simp [State.heldAmong]
  prog := fun k _ => by simp [State.heldAmong]
  floorQ := rfl
  callQ := rfl
  maintQ := rfl
  kept := by simp

theorem heldAmong_append (s : State) (l : List Nat) (n k : Nat) :
    s.heldAmong (l ++ [n]) k = s.heldAmong l k + if (s.posAt n).hold = some k then 1 else 0 := by
  simp only [State.heldAmong, List.filter_append, List.length_append]
  by_cases h : (s.posAt n).hold = some k <;> simp [h]

section
variable {s u : State} {l : List Nat} {n : Nat}

theorem Released.streamOf (h : Released s l u) (k : StreamKind) (p : Nat) : u.streamOf k p = s.streamOf k p := by
  refine streamOf_congr (fun i _ _ => ?_) k p
  rw [h.slot]
  repeat' split
  all_goals simp [Slot.stop_idle_iff, Slot.stop_kind, Slot.stop_target]

/-- The streams of a position are not touched by the release of others. -/
theorem Released.own_slot (h : Released s l u) (hrecord : RecordLaw s) (hl : ∀ p ∈ l, p < 16) (hn : n ∉ l)
    (k : StreamKind) (i : Nat) (hi : s.streamOf k n = some i) : u.slotAt i = s.slotAt i := by
  obtain ⟨hlo, _, _, _, htarget⟩ := streamOf_some s _ _ _ hi
  have hother (k' : StreamKind) : l.any (fun p => s.streamOf k' p == some i) = false := by
    rw [List.any_eq_false]
    intro p hp hpi
    obtain ⟨_, _, _, _, htarget'⟩ := streamOf_some s _ _ _ (by simpa using hpi)
    rw [htarget] at htarget'
    cases htarget'
    exact hn hp
  have hnone : s.heldAmong l i = 0 := by
    rw [State.heldAmong, List.length_eq_zero_iff, List.filter_eq_nil_iff]
    intro p hp hpi
    have := (hrecord p (hl p hp)).2.2.2 i (by simpa using hpi)
    omega
  rw [h.slot, hother, hother, hnone]
  simp

theorem Released.flushCount (h : Released s l u) (hrecord : RecordLaw s) (hl : ∀ p ∈ l, p < 16) (hn : n ∉ l) :
    flushCount n u = Sys2Proof.Machine.flushCount n s := by
  unfold Sys2Proof.Machine.flushCount
  rw [h.streamOf, h.queue, if_neg hn]
  cases hi : s.streamOf .whisper n with
  | none => rfl
  | some i => simp only [h.own_slot hrecord hl hn _ i hi]

/-- The slots after one more release. -/
theorem Released.slot_step (h : Released s l u) (hrecord : RecordLaw s) (hl : ∀ p ∈ l, p < 16) (hn : n ∉ l)
    (hn16 : n < 16) (hpos : u.posAt n = s.posAt n) (i : Nat) :
    (teardown n .lineLoss u).slotAt i =
      if (l ++ [n]).any (fun p => s.streamOf .whisper p == some i) then (s.slotAt i).stop .flushed
      else if (l ++ [n]).any (fun p => s.streamOf .caller p == some i) then (s.slotAt i).stop .released
      else if 0 < s.heldAmong (l ++ [n]) i ∧ (s.progAt i).listeners ≤ s.heldAmong (l ++ [n]) i then
        (s.slotAt i).stop .noListeners
      else s.slotAt i := by
  have hrange : ∀ k, (s.posAt n).hold = some k → k < 4 := (hrecord n hn16).2.2.2
  have hnot (k : StreamKind) (p : Nat) (hp : s.streamOf k p = some i) : ¬ (s.posAt n).hold = some i := fun hh => by
    obtain ⟨hlo, _⟩ := streamOf_some s _ _ _ hp
    have := hrange i hh
    omega
  rw [teardown_slotAt .lineLoss (by rwa [hpos]) i, h.streamOf, h.streamOf, hpos]
  simp only [List.any_append, List.any_cons, List.any_nil, Bool.or_false, Bool.or_eq_true, beq_iff_eq, heldAmong_append]
  by_cases hw : s.streamOf .whisper n = some i
  · simp [hw, h.own_slot hrecord hl hn _ i hw]
  by_cases hc : s.streamOf .caller n = some i
  · have hnow : l.any (fun p => s.streamOf .whisper p == some i) = false := by
      rw [List.any_eq_false]
      intro p _ hpi
      obtain ⟨_, _, _, hkind, _⟩ := streamOf_some s _ _ _ hc
      obtain ⟨_, _, _, hkind', _⟩ := streamOf_some s _ _ _ (by simpa using hpi)
      rw [hkind] at hkind'; cases hkind'
    simp only [hw, hc, hnow, h.own_slot hrecord hl hn _ i hc, Bool.false_eq_true, if_true, if_false, or_true, or_self]
  by_cases hh : (s.posAt n).hold = some i
  · have hnostream (k : StreamKind) : l.any (fun p => s.streamOf k p == some i) = false := by
      rw [List.any_eq_false]
      exact fun p _ hpi => hnot k p (by simpa using hpi) hh
    have hsl := h.slot i
    rw [hnostream, hnostream, if_neg Bool.false_ne_true, if_neg Bool.false_ne_true] at hsl
    have hprog : (u.progAt i).listeners = (s.progAt i).listeners - s.heldAmong l i := by rw [h.prog i (hrange i hh)]
    simp only [hw, hc, hh, hnostream, Bool.false_eq_true, or_self, if_true, if_false, hprog, true_and]
    by_cases hlast : (s.progAt i).listeners ≤ s.heldAmong l i + 1
    · rw [if_pos (by omega), if_pos (by omega), hsl]
      split
      · exact Slot.stop_stop _ _ _
      · rfl
    · rw [if_neg (by omega), if_neg (by omega), hsl, if_neg (by omega)]
  · simp only [hw, hc, hh, or_false, if_false, false_and, Nat.add_zero]
    exact h.slot i

/-- One more call is released. -/
theorem Released.step (h : Released s l u) (hrecord : RecordLaw s) (hrelation : RelationLaw s)
    (hl : ∀ p ∈ l, p < 16 ∧ (s.posAt p).call ≠ .free) (hn : n ∉ l) (hn16 : n < 16) (hcall : (s.posAt n).call ≠ .free) :
    Released s (l ++ [n]) (releaseOne n u) := by
  have hl16 : ∀ p ∈ l, p < 16 := fun p hp => (hl p hp).1
  have hpos : u.posAt n = s.posAt n := h.waiting n hn16 hn hcall
  have hcallU : (u.posAt n).call ≠ .free := by rwa [hpos]
  have hk : ∀ k, (u.posAt n).hold = some k → k < 4 := by rw [hpos]; exact (hrecord n hn16).2.2.2
  have hsup : u.supervisorOf n = s.supervisorOf n := supervisorOf_congr (by rw [hpos])
  have hteardown : ∀ q, q < 16 → (releaseOne n u).posAt q = _ := fun q hq =>
    (State.post_posAt ..).trans (teardown_posAt .lineLoss h.relation hn16 hcallU q hq)
  have hsupFree : ∀ q, s.supervisorOf n = some q → (s.posAt q).call = .free := fun q hq => by
    obtain ⟨r, hr, hform, _⟩ := (agentOf_eq_some s q n).1 ((hrelation.supervisor_iff n q).1 hq)
    obtain ⟨_, _, _, hiff, _⟩ := hrelation q (relation_lt hr) r hr
    exact hiff.1 hform
  have hheld : u.resetHeld = s.resetHeld := h.kept.2.2.1
  have htmn : u.tmn = s.tmn := by
    obtain ⟨_, _, _, _, _, _, _, _, _, _, _, ht, _⟩ := h.kept
    exact ht
  refine ⟨?_, ?_, ?_, ?_, ?_, ?_, ?_, ?_, ?_, ?_, ?_, ?_⟩
  · exact (teardown_moves n .lineLoss u hn16 hcallU).then_fields (State.post_pos ..) (State.post_prog ..)
      |>.keep (fun _ _ hlaw hmove => RelationLaw.move hlaw hmove) h.relation
  · intro q hq hql hqcall
    obtain ⟨hql', hqn⟩ : q ∉ l ∧ q ≠ n := by simpa using hql
    rw [hteardown q hq, if_neg hqn, hsup, if_neg (fun hs => hqcall (hsupFree q hs)), h.waiting q hq hql' hqcall]
  · intro q hq
    rcases List.mem_append.1 hq with hql | hqn
    · obtain ⟨hq16, hqcall⟩ := hl q hql
      have hqn : q ≠ n := by rintro rfl; exact hn hql
      rw [hteardown q hq16, if_neg hqn, hsup, if_neg (fun hs => hqcall (hsupFree q hs)), h.torn q hql]
    · obtain rfl : q = n := by simpa using hqn
      rw [hteardown q hn16, if_pos rfl, hpos]
  · intro q hq hqfree
    have hqn : q ≠ n := by rintro rfl; exact hcall hqfree
    have hiff : s.supervisorOf n = some q ↔ s.agentOf q = some n := hrelation.supervisor_iff n q
    have hmore : (∃ a ∈ l ++ [n], s.agentOf q = some a) ↔ (∃ a ∈ l, s.agentOf q = some a) ∨ s.agentOf q = some n := by
      simp [or_and_right, exists_or]
    rw [hteardown q hq, if_neg hqn, hsup, h.free q hq hqfree]
    simp only [hiff, hmore]
    by_cases hold : ∃ a ∈ l, s.agentOf q = some a
    · simp only [if_pos hold, if_pos (Or.inl hold)]
      split <;> rfl
    · by_cases hnew : s.agentOf q = some n
      · simp only [if_neg hold, if_pos hnew, if_pos (Or.inr hnew)]
      · simp only [if_neg hold, if_neg hnew, if_neg (not_or.2 ⟨hold, hnew⟩)]
  · intro q
    rw [releaseOne, State.post_queueAt, teardown_queueAt n hn16, h.queue]
    by_cases hqn : q = n
    · simp [hqn]
    · simp [hqn]
  · rw [releaseOne, State.post_waitList, teardown_waitList, h.waitList, List.foldl_append]
    rfl
  · intro i
    rw [releaseOne, State.post_slotAt]
    exact h.slot_step hrecord hl16 hn hn16 hpos i
  · intro k hk4
    rw [releaseOne, State.post_progAt, teardown_progAt n .lineLoss u k hk4, h.prog k hk4, hpos, heldAmong_append]
    by_cases hh : (s.posAt n).hold = some k
    · simp [hh, Nat.sub_sub]
    · simp [hh]
  · have hfloor := releaseOne_post_other n u .floor (by simp)
    rw [teardown_floor .lineLoss hk, hsup, h.flushCount hrecord hl16 hn, hheld, htmn] at hfloor
    rw [List.foldl_append, ← h.floorQ]
    exact hfloor
  · have hcallQ : (releaseOne n u).noticesOf .call = _ := State.post_noticesOf ..
    simp only [if_true, teardown_other .lineLoss .call (by simp : Role.call ≠ .floor), teardown_keeps, htmn, hheld]
      at hcallQ
    rw [List.foldl_append, ← h.callQ]
    exact hcallQ
  · have hmaint := releaseOne_post_other n u .maint (by simp)
    rw [teardown_other .lineLoss .maint (by simp)] at hmaint
    exact Eq.trans hmaint h.maintQ
  · simpa [releaseOne] using h.kept

end

/-- The calls that stand in `s`, P0 first. -/
def State.calls (s : State) (n : Nat) : List Nat := (List.range n).filter (fun p => (s.posAt p).call ≠ .free)

theorem mem_calls (s : State) (n p : Nat) : p ∈ s.calls n ↔ p < n ∧ (s.posAt p).call ≠ .free := by
  simp [State.calls]

/-- The forced release releases every call that stands, and no other (R14). -/
theorem forcedRelease_released {s : State} (hrecord : RecordLaw s) (hrelation : RelationLaw s) :
    Released s (s.calls 16) (forcedRelease s) := by
  have hprefix (m : Nat) (hm : m ≤ 16) : Released s (s.calls m)
      ((List.range m).foldl (fun u p => if (u.posAt p).call = .free then u else releaseOne p u) s) := by
    induction m with
    | zero => exact .refl hrelation
    | succ m ih =>
      have hu := ih (by omega)
      have hnot : m ∉ s.calls m := fun h => absurd ((mem_calls s m m).1 h).1 (Nat.lt_irrefl m)
      rw [List.range_succ, List.foldl_append]
      simp only [List.foldl_cons, List.foldl_nil]
      by_cases hfree : (s.posAt m).call = .free
      · have hsame : s.calls (m + 1) = s.calls m := by simp [State.calls, List.range_succ, hfree]
        have hfreeU : (List.foldl (fun u p => if (u.posAt p).call = .free then u else releaseOne p u) s
            (List.range m) |>.posAt m).call = .free := by
          rw [hu.free m (by omega) hfree]; split <;> exact hfree
        rw [hsame, if_pos hfreeU]
        exact hu
      · have hmore : s.calls (m + 1) = s.calls m ++ [m] := by simp [State.calls, List.range_succ, hfree]
        have hcallU := hu.waiting m (by omega) hnot hfree
        rw [hmore, if_neg (by rw [hcallU]; exact hfree)]
        refine hu.step hrecord hrelation (fun p hp => ?_) hnot (by omega) hfree
        obtain ⟨hpm, hpc⟩ := (mem_calls s m p).1 hp
        exact ⟨by omega, hpc⟩
  exact hprefix 16 (Nat.le_refl 16)

end Sys2Proof.Machine
end

section
/-! SUPPORT. The grace timer's limit, and the statement of its expiry (R14, R178). -/

namespace Sys2Proof.Machine

/-- The grace timer stands at its limit (R178). -/
theorem graceOver_iff (t : Timing) :
    t.graceOver = true ↔ t.running = true ∧ 0 < t.grace ∧ 20 * t.grace ≤ t.elapsed := by
  simp only [Timing.graceOver, Bool.and_eq_true, decide_eq_true_iff, and_assoc]
  exact Iff.rfl

/-- A block end brings the grace timer to its limit (R178). -/
theorem countGrace_graceOver_iff (t : Timing) :
    t.countGrace.graceOver = true ↔
      t.running = true ∧ 0 < t.grace ∧ 20 * t.grace ≤ (if t.elapsed < 5100 then t.elapsed + 1 else t.elapsed) := by
  rw [graceOver_iff]
  refine and_congr_right fun (h : t.running = true) => ?_
  simp only [Timing.countGrace, h, Bool.true_and, decide_eq_true_iff]
  exact Iff.rfl

/-- What GRACE_TIMER_EXPIRY does: an expiry, or the block end at which the timer reaches its limit, or nothing (R178). -/
theorem graceTimerExpiry_cases (s : State) :
    (s.tmn.graceOver = true ∧
        graceTimerExpiry s = forcedRelease (s.modTmn (fun t => { t with running := false }))) ∨
      (s.tmn.graceOver = false ∧ s.tmn.countGrace.graceOver = true ∧ graceTimerExpiry s = blockBoundary s) ∨
      (s.tmn.graceOver = false ∧ s.tmn.countGrace.graceOver = false ∧ graceTimerExpiry s = s) := by
  unfold graceTimerExpiry
  cases h : s.tmn.graceOver with
  | true =>
    rcases graceExpiry_cases s with ⟨_, heq⟩ | ⟨hno, _⟩
    · exact .inl ⟨rfl, by simpa using heq⟩
    · rw [h] at hno; cases hno
  | false =>
    cases h' : s.tmn.countGrace.graceOver with
    | true => exact .inr (.inl ⟨rfl, rfl, by simp⟩)
    | false => exact .inr (.inr ⟨rfl, rfl, by simp⟩)

/-- After the forced release no FREE position supervises: every agent was in a call (R14, R23). -/
theorem Released.free_all {s u : State} (h : Released s (s.calls 16) u) (hrelation : RelationLaw s) (p : Nat)
    (hp : p < 16) (hfree : (s.posAt p).call = .free) : u.posAt p = { s.posAt p with relation := none } := by
  rw [h.free p hp hfree]
  split
  · rfl
  next hnone =>
    have hagent : s.agentOf p = none := by
      rw [Option.eq_none_iff_forall_ne_some]
      intro a ha
      have hsup := (hrelation.supervisor_iff a p).2 ha
      obtain ⟨r, hr, hform, _⟩ := (supervisorOf_eq_some s a p).1 hsup
      obtain ⟨_, _, _, hiff, _⟩ := hrelation a (relation_lt hr) r hr
      refine hnone ⟨a, (mem_calls s 16 a).2 ⟨relation_lt hr, fun hcall => ?_⟩, ha⟩
      rw [hiff.2 hcall] at hform
      cases hform
    have hrel := hrelation.free hfree hagent
    generalize s.posAt p = x at hrel
    cases x
    cases hrel
    rfl

/-- A general slot after the forced release: the whisper and caller streams of the calls are stopped (R13, R125). -/
theorem Released.slot_general {s u : State} (h : Released s (s.calls 16) u) (hrecord : RecordLaw s) (i : Nat) (hi : 4 ≤ i) :
    u.slotAt i =
      if (s.calls 16).any (fun p => s.streamOf .whisper p == some i) then (s.slotAt i).stop .flushed
      else if (s.calls 16).any (fun p => s.streamOf .caller p == some i) then (s.slotAt i).stop .released
      else s.slotAt i := by
  have hnone : s.heldAmong (s.calls 16) i = 0 := by
    rw [State.heldAmong, List.length_eq_zero_iff, List.filter_eq_nil_iff]
    intro p hp hpi
    have := (hrecord p ((mem_calls s 16 p).1 hp).1).2.2.2 i (by simpa using hpi)
    omega
  rw [h.slot i, hnone, if_neg (by omega : ¬ (0 < 0 ∧ _))]

/-- A programme's slot after the forced release: it stops where the programme has lost its last listener (R13, R133). -/
theorem Released.slot_programme {s u : State} (h : Released s (s.calls 16) u) (k : Nat) (hk : k < 4) :
    u.slotAt k =
      if 0 < s.heldAmong (s.calls 16) k ∧ (s.progAt k).listeners ≤ s.heldAmong (s.calls 16) k then
        (s.slotAt k).stop .noListeners
      else s.slotAt k := by
  have hnostream (kind : StreamKind) : (s.calls 16).any (fun p => s.streamOf kind p == some k) = false := by
    rw [List.any_eq_false]
    intro p _ hpk
    obtain ⟨hlo, _⟩ := streamOf_some s _ _ _ (by simpa using hpk)
    omega
  rw [h.slot k, hnostream, hnostream, if_neg Bool.false_ne_true, if_neg Bool.false_ne_true]

end Sys2Proof.Machine

open Sys2Proof Sys2Proof.Machine

/-- Settles O15: a timer at its limit releases the calls one after the other, P0 first. -/
theorem graceExpiryReleasesEveryCall : Obligations.GraceExpiryReleasesEveryCall := by
  intro s hrecord hrelation clock calls flushed heldOn note
  refine ⟨fun hrun hgrace hlimit => ?_, fun hrun hgrace hbefore hafter hmost hframes => ?_, fun hno => ?_⟩
  · have hover : s.tmn.graceOver = true := (graceOver_iff s.tmn).2 ⟨hrun, hgrace, hlimit⟩
    have hexec : graceTimerExpiry s = forcedRelease (s.modTmn (fun t => { t with running := false })) := by
      rcases graceTimerExpiry_cases s with ⟨_, h⟩ | ⟨h, _⟩ | ⟨h, _⟩
      · exact h
      all_goals rw [hover] at h; cases h
    have hR := forcedRelease_released (s := s.modTmn (fun t => { t with running := false })) hrecord hrelation
    rw [← hexec] at hR
    refine ⟨graceTimerExpiry s, rfl, ?_⟩
    generalize graceTimerExpiry s = t at hR
    have hflushed (p : Nat) : flushed p = flushCount p s := (flushCount_eq p s).symm
    clear_value flushed
    obtain ⟨hpending, hmode, hheld, hlink, hec, hpool, hlev, hparams, hmix, hclip, hstore, htmn, hhwy, hwords, hport⟩ := hR.kept
    refine ⟨htmn, fun p hp => ?_, fun p hp => ?_, hR.waitList, fun i hi _ => hR.slot_general hrecord i hi,
      fun k hk => ⟨hR.prog k hk, hR.slot_programme k hk⟩, ?_,
      hR.callQ, ?_⟩
    · by_cases hfree : (s.posAt p).call = .free
      · rw [if_pos hfree]
        exact hR.free_all hrelation p hp hfree
      · rw [if_neg hfree]
        exact hR.torn p ((mem_calls s 16 p).2 ⟨hp, hfree⟩)
    · have hmem : p ∈ s.calls 16 ↔ (s.posAt p).call ≠ .free := by rw [mem_calls]; exact and_iff_right hp
      have hq := hR.queue p
      by_cases hfree : (s.posAt p).call = .free
      · rw [if_pos hfree]
        exact hq.trans (if_neg (fun h => hmem.1 h hfree))
      · rw [if_neg hfree]
        exact hq.trans (if_pos (hmem.2 hfree))
    · refine hR.floorQ.trans (congrArg (fun f => calls.foldl f s.floorQ) (funext fun q => funext fun p => ?_))
      rw [hflushed p]
      have hswap (a b : NoticeQueue) : (if 1 ≤ flushCount p s then a else b) = (if flushCount p s = 0 then b else a) := by
        by_cases hzero : flushCount p s = 0
        · rw [if_pos hzero, if_neg (by omega)]
        · rw [if_neg hzero, if_pos (by omega)]
      change NoticeQueue.tornDown p .lineLoss (s.supervisorOf p) (flushCount p s) s.tmn.blockCount s.resetHeld q = _
      cases s.supervisorOf p with
      | none => exact hswap _ _
      | some b => exact hswap _ _
    · refine (State.eq_of_kept (s := s) hpending hmode hheld hlink hec hpool hlev hparams hmix hclip hhwy hwords
        hR.maintQ).trans ?_
      rw [hstore, hport]
      rfl
  · have hover : ¬ s.tmn.graceOver = true := fun h => by
      obtain ⟨_, _, h⟩ := (graceOver_iff s.tmn).1 h
      exact absurd hbefore (Nat.not_lt.2 h)
    have hcount : s.tmn.countGrace.graceOver = true :=
      (countGrace_graceOver_iff s.tmn).2 ⟨hrun, hgrace, by rw [if_pos hmost]; exact hafter⟩
    rcases graceTimerExpiry_cases s with ⟨h, _⟩ | ⟨_, _, h⟩ | ⟨_, h, _⟩
    · exact absurd h hover
    · exact congrArg Host.Outcome.next h
    · rw [hcount] at h; cases h
  · have hover : ¬ s.tmn.graceOver = true := fun h => by
      obtain ⟨hrun, hgrace, hlimit⟩ := (graceOver_iff s.tmn).1 h
      change 0 < clock.grace at hgrace
      change 20 * clock.grace ≤ clock.elapsed at hlimit
      rcases hno with hno | hno | hno | ⟨hno, _⟩
      · exact absurd (hrun.symm.trans hno) (by simp)
      all_goals omega
    rcases graceTimerExpiry_cases s with ⟨h, _⟩ | ⟨_, hcount, h⟩ | ⟨_, _, h⟩
    · exact absurd h hover
    · obtain ⟨hrun, hgrace, hlimit⟩ := (countGrace_graceOver_iff s.tmn).1 hcount
      change 0 < clock.grace at hgrace
      change 20 * clock.grace ≤ (if clock.elapsed < 5100 then clock.elapsed + 1 else clock.elapsed) at hlimit
      have hframes : clock.frames < 40 := by
        rcases hno with hno | hno | hno | ⟨hno, hno'⟩
        · exact absurd (hrun.symm.trans hno) (by simp)
        all_goals (split at hlimit <;> omega)
      rcases blockBoundary_cases s with ⟨hfull, _⟩ | ⟨_, hsame⟩
      · exact absurd hframes (Nat.not_lt.2 hfull)
      · exact congrArg Host.Outcome.next (h.trans hsame)
    · exact congrArg Host.Outcome.next h

end

section
/-! SUPPORT. The arithmetic of the sums (section 0.5.2, R42, R43), and the frame in the order of its work (R19, R40). -/

namespace Sys2Proof.Machine

/-! ### Arithmetic -/

theorem sat16_eq_clamp (v : Int) : sat16 v = max (-32768) (min 32767 v) := by
  unfold sat16
  split
  · omega
  · split <;> omega

/-- Rounding goes to a nearest multiple, and of two nearest ones to that farther from zero (section 0.5.2). -/
theorem roundDiv_nearest (a : Int) (b : Nat) (hb : 0 < b) :
    2 * (a - b * roundDiv a b).natAbs ≤ b ∧
      (2 * (a - b * roundDiv a b).natAbs = b → a.natAbs < (b * roundDiv a b).natAbs) := by
  have hquot (c : Int) : 2 * (b * ((2 * c + b) / (2 * b))) ≤ 2 * c + b ∧
      2 * c + b < 2 * (b * ((2 * c + b) / (2 * b))) + 2 * b := by
    have hmod := Int.emod_add_mul_ediv (2 * c + b) (2 * b)
    have hnonneg := Int.emod_nonneg (2 * c + b) (b := 2 * (b : Int)) (by omega)
    have hlt := Int.emod_lt_of_pos (2 * c + b) (b := 2 * (b : Int)) (by omega)
    rw [mul_assoc] at hmod
    omega
  unfold roundDiv
  split
  next ha =>
    obtain ⟨hlo, hhi⟩ := hquot a
    generalize (b : Int) * ((2 * a + b) / (2 * b)) = m at *
    omega
  next ha =>
    obtain ⟨hlo, hhi⟩ := hquot (-a)
    rw [mul_neg]
    generalize (b : Int) * ((2 * (-a) + b) / (2 * b)) = m at *
    omega

theorem tableGain_shift (w : Nat) : tableGain w = tableGain (w % 16) / 2 ^ (w / 16) := by
  have h : w % 16 / 16 = 0 := Nat.div_eq_of_lt (Nat.mod_lt w (by omega))
  simp [tableGain, h]

/-- The entries of table T are the powers of 2 to the sixteenths, rounded (R43). -/
theorem tableGain_nearest : ∀ i, i < 16 →
    (2 * tableGain i - 1) ^ 16 * 2 ^ i ≤ 65536 ^ 16 ∧ 65536 ^ 16 < (2 * tableGain i + 1) ^ 16 * 2 ^ i := by
  decide +kernel

theorem tableGain_values : [0, 4, 8, 12, 16, 20, 24, 32, 33, 40, 48].map tableGain =
    [32768, 27554, 23170, 19484, 16384, 13777, 11585, 8192, 7844, 5792, 4096] := by decide +kernel

/-! ### The stream of a position -/

theorem streamOf_eq_some_iff (s : State) (k : StreamKind) (p i : Nat) :
    s.streamOf k p = some i ↔ 4 ≤ i ∧ i < 24 ∧ s.plays i k p ∧ ∀ j, 4 ≤ j → j < i → ¬ s.plays j k p := by
  have hfind : s.streamOf k p = ((List.range 20).find? (fun j => decide ((s.slotAt (j + 4)).state ≠ .idle ∧
      (s.slotAt (j + 4)).kind = some k ∧ (s.slotAt (j + 4)).target = some p))).map (· + 4) := by
    unfold State.streamOf generalSlots
    rw [List.find?_map]
    rfl
  simp only [State.plays]
  rw [hfind, Option.map_eq_some_iff]
  constructor
  · rintro ⟨j, hj, rfl⟩
    obtain ⟨hplays, hmem, hfirst⟩ := List.find?_range_eq_some.1 hj
    have hj20 : j < 20 := by simpa using hmem
    refine ⟨by omega, by omega, by simpa using hplays, fun m hm hmj => ?_⟩
    have := hfirst (m - 4) (by omega)
    rw [Nat.sub_add_cancel hm] at this
    simpa only [Bool.not_eq_true', decide_eq_false_iff_not] using this
  · rintro ⟨hlo, hhi, hplays, hfirst⟩
    refine ⟨i - 4, List.find?_range_eq_some.2 ⟨?_, by simp; omega, fun j hj => ?_⟩, by omega⟩
    · rw [Nat.sub_add_cancel hlo]; simpa using hplays
    · simpa only [Bool.not_eq_true', decide_eq_false_iff_not] using hfirst (j + 4) (by omega) (by omega)

/-! ### The order of a frame boundary -/

theorem mayBegin_iff (t : Timing) : t.mayBegin = true ↔ t.state ≠ .locked ∨ t.boundary ≠ none := by
  simp [Timing.mayBegin, Option.isSome_iff_ne_none]

theorem frameBoundary_begins {s : State} (h : s.tmn.mayBegin = true) :
    frameBoundary s = frameWork (blockBoundary (missingWords s)) := if_pos h

theorem missingWords_missingWords (s : State) : missingWords (missingWords s) = missingWords s :=
  missingWords_none _ (by rw [missingWords_words]; omega)

/-- The word of the port that is next, and then the boundary with the words that are still missing (R154). -/
theorem frameBoundary_word {s : State} (h : s.tmn.mayBegin = true) (hw : s.words < 16) :
    frameBoundary s = frameBoundary (headsetWordArrival s.words 0 s) := by
  have harrive : headsetWordArrival s.words 0 s = takeWord s.words 0 s := by
    rcases headsetWordArrival_cases s.words 0 s with ⟨hlt, _⟩ | ⟨_, heq⟩
    · omega
    · rw [heq, Nat.sub_self]; rfl
  have hmissing : missingWords s = missingWords (takeWord s.words 0 s) := by
    have hn : 16 - s.words = (16 - (s.words + 1)) + 1 := by omega
    rw [missingWords, hn]
    rfl
  rw [harrive, frameBoundary_begins h, frameBoundary_begins (by simpa using h), hmissing]

/-- A complete block ends first, with the expiry that falls at it (R182). -/
theorem frameBoundary_block {s : State} (h : s.tmn.mayBegin = true) (hfull : 40 ≤ s.tmn.frames) :
    frameBoundary s = frameBoundary (blockBoundary s) := by
  have hend (t : State) (hfull : 40 ≤ t.tmn.frames) : blockBoundary t = graceExpiry (blockWork (missingWords t)) := by
    rcases blockBoundary_cases t with ⟨_, heq⟩ | ⟨hlt, _⟩
    · exact heq
    · omega
  have hgrace (t : State) : (graceExpiry t).tmn.mayBegin = t.tmn.mayBegin ∧ (graceExpiry t).tmn.frames = t.tmn.frames := by
    rcases graceExpiry_cases t with ⟨_, heq⟩ | ⟨_, heq⟩ <;> simp [heq, Timing.mayBegin]
  have hwork : (blockWork (missingWords s)).tmn.mayBegin = s.tmn.mayBegin ∧ (blockWork (missingWords s)).tmn.frames = 0 := by
    have htmn : (blockWork (missingWords s)).tmn = Timing.countGrace
        { s.tmn with blockCount := if s.tmn.blockCount = 65535 then 0 else s.tmn.blockCount + 1, frames := 0 } := by
      simp [blockWork]
    rw [htmn]
    exact ⟨rfl, rfl⟩
  have hwords : 16 ≤ (blockBoundary s).words := by
    rw [hend s hfull]; simp [missingWords_words]
  have hdone : blockBoundary (blockBoundary s) = blockBoundary s := by
    rcases blockBoundary_cases (blockBoundary s) with ⟨hfull', _⟩ | ⟨_, heq⟩
    · rw [hend s hfull, (hgrace _).2, hwork.2] at hfull'; omega
    · exact heq
  have hbegin : (blockBoundary s).tmn.mayBegin = true := by
    rw [hend s hfull, (hgrace _).1, hwork.1, h]
  rw [frameBoundary_begins h, frameBoundary_begins hbegin, missingWords_none _ hwords, hdone,
    hend (missingWords s) (by simpa using hfull), missingWords_missingWords, ← hend s hfull]

/-- With every word come and the block not complete, the frame begins at once (R173). -/
theorem frameBoundary_frame {s : State} (h : s.tmn.mayBegin = true) (hw : 16 ≤ s.words) (hroom : s.tmn.frames < 40) :
    frameBoundary s = frameWork s := by
  rw [frameBoundary_begins h, missingWords_none s hw]
  rcases blockBoundary_cases s with ⟨hfull, _⟩ | ⟨_, heq⟩
  · omega
  · rw [heq]

end Sys2Proof.Machine
end

section
/-! SUPPORT. What the work of a frame does to each part of the state: the ramps with their notices, the samples of every
position, and the slots (R19, R20, R40, R54, R122). -/

namespace Sys2Proof.Machine

/-! ### The mute ramps -/

/-- The frame's step changes no more of a record than its ramp. -/
theorem stepRamp_keeps (x : Position) : x.stepRamp = { x with ramp := x.stepRamp.ramp } := by
  unfold Position.stepRamp
  split
  · rfl
  · split <;> rfl

/-- The ramp moves by one toward its target, and stays there (R19). -/
theorem stepRamp_ramp (x : Position) (h : x.ramp ≤ 40) :
    x.stepRamp.ramp = if x.effMute then x.ramp - 1 else min 40 (x.ramp + 1) := by
  simp only [Position.stepRamp, apply_ite Position.ramp]
  have htarget : x.rampTarget = if x.effMute then 0 else 40 := rfl
  rw [htarget]
  cases x.effMute
  · simp only [Bool.false_eq_true, if_false]
    split_ifs <;> omega
  · simp only [if_true]
    split_ifs <;> omega

/-- The step reaches the target exactly from the value next to it (R20). -/
theorem stepRamp_reaches (x : Position) (h : x.ramp ≤ 40) :
    (x.ramp ≠ x.rampTarget ∧ x.stepRamp.ramp = x.rampTarget) ↔ x.ramp = if x.effMute then 1 else 39 := by
  rw [stepRamp_ramp x h]
  unfold Position.rampTarget Config.rampTop
  split <;> omega

/-- The CALL queue after the frame's step of the ramp of `x`, the record of `p` (R20). -/
def NoticeQueue.rampStepped (x : Position) (p stamp : Nat) (held : Bool) (q : NoticeQueue) : NoticeQueue :=
  if x.ramp = (if x.effMute then 1 else 39) then
    q.push { kind := .muteEffective, position := some p, subject := none, cause := none,
             value := some (if x.effMute then 1 else 0), stamp := stamp } held
  else q

theorem muteStep_posAt (p : Nat) (s : State) (q : Nat) :
    (muteStep p s).posAt q = if p = q ∧ p < 16 then (s.posAt p).stepRamp else s.posAt q := by
  have hpos : (muteStep p s).posAt q = (s.modPos p Position.stepRamp).posAt q := by
    unfold muteStep
    dsimp only
    split
    · exact State.post_posAt ..
    · rfl
  rw [hpos, State.modPos_posAt]

theorem muteStep_callQ (p : Nat) (s : State) (h : (s.posAt p).ramp ≤ 40) :
    (muteStep p s).callQ = s.callQ.rampStepped (s.posAt p) p s.tmn.blockCount s.resetHeld := by
  unfold muteStep NoticeQueue.rampStepped
  simp only [stepRamp_reaches (s.posAt p) h]
  by_cases hreach : (s.posAt p).ramp = if (s.posAt p).effMute then 1 else 39
  · rw [if_pos hreach, if_pos hreach]
    rfl
  · rw [if_neg hreach, if_neg hreach]
    rfl

/-- A turn of the ramps before that of `q` leaves its record. -/
theorem mutesBefore_posAt (s : State) (n q : Nat) (hn : n ≤ 16) :
    ((List.range n).foldl (fun t p => muteStep p t) s).posAt q = if q < n then (s.posAt q).stepRamp else s.posAt q :=
  foldl_range_entry State.posAt (fun _ => True) muteStep (fun _ => Position.stepRamp) n (fun _ _ _ => trivial)
    (fun p q t hne => by rw [muteStep_posAt, if_neg (fun h => hne h.1.symm)])
    (fun p t hp _ => by rw [muteStep_posAt, if_pos ⟨rfl, by omega⟩]) s trivial q

theorem mutesBefore_callQ (s : State) (h : ∀ p, p < 16 → (s.posAt p).ramp ≤ 40) (n : Nat) (hn : n ≤ 16) :
    ((List.range n).foldl (fun t p => muteStep p t) s).callQ =
      (List.range n).foldl (fun q p => q.rampStepped (s.posAt p) p s.tmn.blockCount s.resetHeld) s.callQ := by
  induction n with
  | zero => rfl
  | succ m ih =>
    have hpos := mutesBefore_posAt s m m (by omega)
    rw [if_neg (Nat.lt_irrefl m)] at hpos
    have hkeep : ((List.range m).foldl (fun t p => muteStep p t) s).tmn = s.tmn ∧
        ((List.range m).foldl (fun t p => muteStep p t) s).resetHeld = s.resetHeld :=
      foldl_range_keeps (fun t => t.tmn = s.tmn ∧ t.resetHeld = s.resetHeld) muteStep m
        (fun p t _ ht => by simpa using ht) s ⟨rfl, rfl⟩
    have ih' := ih (by omega)
    rw [List.range_succ, List.foldl_append, List.foldl_append]
    generalize (List.range m).foldl (fun t p => muteStep p t) s = t at *
    obtain ⟨htmn, hheld⟩ := hkeep
    show (muteStep m t).callQ = NoticeQueue.rampStepped _ _ _ _ _
    rw [muteStep_callQ m t (by rw [hpos]; exact h m (by omega)), hpos, ih', htmn, hheld]

/-- After the ramps: the records with the ramps stepped, the CALL queue with the notices, and the rest as it was. -/
structure RampsStepped (s u : State) : Prop where
  rest : u = { s with pos := u.pos, callQ := u.callQ }
  posAt : ∀ q, u.posAt q = if q < 16 then (s.posAt q).stepRamp else s.posAt q
  callQ : (∀ p, p < 16 → (s.posAt p).ramp ≤ 40) → u.callQ =
    (List.range 16).foldl (fun q p => q.rampStepped (s.posAt p) p s.tmn.blockCount s.resetHeld) s.callQ

theorem muteStep_rest (p : Nat) (s : State) : muteStep p s = { s with pos := (muteStep p s).pos, callQ := (muteStep p s).callQ } := by
  unfold muteStep
  dsimp only
  split <;> rfl

theorem ramps_stepped (s : State) : RampsStepped s (forPositions muteStep s) where
  rest := forPositions_keeps (fun t => t = { s with pos := t.pos, callQ := t.callQ }) muteStep
    (fun p t _ ht => by rw [muteStep_rest p t]; generalize (muteStep p t).pos = x, (muteStep p t).callQ = y; rw [ht]) s rfl
  posAt q := mutesBefore_posAt s 16 q (Nat.le_refl 16)
  callQ h := mutesBefore_callQ s h 16 (Nat.le_refl 16)

end Sys2Proof.Machine
end

section
/-! SUPPORT. What a frame reads after its ramps have stepped, and what the readings are by the relation of the position and
the stream it has (R40 to R54). -/

namespace Sys2Proof.Machine

/-! ### The readings after the ramps -/

section
variable {s u : State} (h : RampsStepped s u)
include h

theorem RampsStepped.reading {α : Type} (f : State → α) (hf : ∀ v P Q, f { v with pos := P, callQ := Q } = f v) :
    f u = f s := (congrArg f h.rest).trans (hf ..)

/-- The records are as they were but for the ramps. -/
theorem RampsStepped.posAt_ramp : ∃ r : Nat → Nat, ∀ q, u.posAt q = { s.posAt q with ramp := r q } := by
  refine ⟨fun q => (u.posAt q).ramp, fun q => ?_⟩
  dsimp only
  rw [h.posAt q]
  split
  · exact stepRamp_keeps _
  · rfl

theorem RampsStepped.mixAt (q : Nat) : u.mixAt q = s.mixAt q := h.reading (·.mixAt q) fun _ _ _ => rfl
theorem RampsStepped.levAt (q : Nat) : u.levAt q = s.levAt q := h.reading (·.levAt q) fun _ _ _ => rfl
theorem RampsStepped.streamTerm (k : StreamKind) (p : Nat) : u.streamTerm k p = s.streamTerm k p :=
  h.reading (·.streamTerm k p) fun _ _ _ => rfl
theorem RampsStepped.callerHeard (p : Nat) : u.callerHeard p = s.callerHeard p :=
  h.reading (·.callerHeard p) fun _ _ _ => rfl
theorem RampsStepped.promptPlays (p : Nat) : u.promptPlays p = s.promptPlays p :=
  h.reading (·.promptPlays p) fun _ _ _ => rfl
theorem RampsStepped.programmeOut (k : Option Nat) : u.programmeOut k = s.programmeOut k :=
  h.reading (·.programmeOut k) fun _ _ _ => rfl

theorem RampsStepped.customer (p : Nat) : u.customer p = s.customer p := by
  obtain ⟨r, hr⟩ := h.posAt_ramp
  have hhwy : u.hwy = s.hwy := h.reading (·.hwy) fun _ _ _ => rfl
  simp only [State.customer, hr, hhwy]

theorem RampsStepped.supervisorOf (p : Nat) : u.supervisorOf p = s.supervisorOf p := by
  obtain ⟨r, hr⟩ := h.posAt_ramp
  exact supervisorOf_congr (by rw [hr])

theorem RampsStepped.agentOf (p : Nat) : u.agentOf p = s.agentOf p := by
  obtain ⟨r, hr⟩ := h.posAt_ramp
  simp only [State.agentOf, hr]

theorem RampsStepped.monitorMode (p : Nat) : u.monitorMode p = s.monitorMode p := by
  obtain ⟨r, hr⟩ := h.posAt_ramp
  simp only [State.monitorMode, hr]

theorem RampsStepped.coached (p : Nat) : u.coached p = s.coached p := by
  simp only [State.coached, h.monitorMode]

theorem RampsStepped.supervisorMic (p : Nat) : u.supervisorMic p = s.supervisorMic p := by
  simp only [State.supervisorMic, h.supervisorOf, h.mixAt]

theorem RampsStepped.guarded (p : Nat) : u.guarded p = s.guarded p := by
  obtain ⟨r, hr⟩ := h.posAt_ramp
  simp only [State.guarded, State.whisperSum, State.liveWhisper, h.coached, h.supervisorMic, h.streamTerm, h.levAt, hr]

theorem RampsStepped.listenTerms (p : Nat) : u.listenTerms p = s.listenTerms p := by
  obtain ⟨r, hr⟩ := h.posAt_ramp
  simp only [State.listenTerms, h.agentOf, h.mixAt, h.customer, hr]

theorem RampsStepped.reference (p : Nat) : u.reference p = s.reference p := by
  obtain ⟨r, hr⟩ := h.posAt_ramp
  simp only [State.reference, h.customer, h.guarded, h.callerHeard, h.streamTerm, h.listenTerms, hr]

theorem RampsStepped.earpiece (p : Nat) : u.earpiece p = s.earpiece p := by
  obtain ⟨r, hr⟩ := h.posAt_ramp
  simp only [State.earpiece, h.reference, h.mixAt, hr]

theorem RampsStepped.whisperPresent (p : Nat) : u.whisperPresent p = s.whisperPresent p := by
  have hslot (i : Nat) : u.slotAt i = s.slotAt i := h.reading (·.slotAt i) fun _ _ _ => rfl
  have hstream : u.streamOf .whisper p = s.streamOf .whisper p := h.reading (·.streamOf .whisper p) fun _ _ _ => rfl
  simp only [State.whisperPresent, h.coached, hstream, hslot]

theorem RampsStepped.trunkSend_free {p : Nat} (hcall : (s.posAt p).call = .free) : u.trunkSend p = none := by
  obtain ⟨r, hr⟩ := h.posAt_ramp
  simp only [State.trunkSend, hr, hcall]

/-- The trunk-send sample of a connected position takes the stepped ramp, and the rest as it stood (R49). -/
theorem RampsStepped.trunkSend_connected {p : Nat} (hcall : (s.posAt p).call = .connected) :
    u.trunkSend p = some (sat16 (roundDiv (term (s.mixAt p).processed (s.posAt p).txGain * (u.posAt p).ramp) 40 +
      (if s.monitorMode p = some .barge then s.supervisorMic p else 0) + s.streamTerm .caller p)) := by
  obtain ⟨r, hr⟩ := h.posAt_ramp
  simp only [State.trunkSend, State.agentTerm, h.monitorMode, h.supervisorMic, h.streamTerm, h.mixAt, hr, hcall,
    Config.rampTop]

theorem RampsStepped.trunkSend_held {p : Nat} (hcall : (s.posAt p).call = .held) :
    u.trunkSend p = some (sat16
      (if s.promptPlays p then s.streamTerm .caller p else s.programmeOut (s.posAt p).hold)) := by
  obtain ⟨r, hr⟩ := h.posAt_ramp
  simp only [State.trunkSend, h.streamTerm, h.promptPlays, h.programmeOut, hr, hcall]

end

/-! ### The readings by relation and stream -/

variable (s : State) (p : Nat)

theorem streamTerm_eq (k : StreamKind) :
    s.streamTerm k p = match s.streamOf k p with
      | some i => term (s.slotAt i).sample ((s.slotAt i).gain.getD 0)
      | none => 0 := by
  unfold State.streamTerm State.streamOut State.streamGain
  cases s.streamOf k p with
  | none => exact (by decide : term 0 0 = 0)
  | some i => rfl

theorem callerHeard_iff : s.callerHeard p = true ↔ ∃ i, s.streamOf .caller p = some i ∧ (s.slotAt i).hears = some true := by
  unfold State.callerHeard
  cases s.streamOf .caller p with
  | none => simp
  | some i => cases hh : (s.slotAt i).hears <;> simp [hh]

theorem promptPlays_iff : s.promptPlays p = true ↔
    ∃ i, s.streamOf .caller p = some i ∧ ((s.slotAt i).state = .playing ∨ (s.slotAt i).state = .ending) := by
  unfold State.promptPlays
  cases s.streamOf .caller p <;> simp

theorem programmeOut_some (k : Nat) :
    s.programmeOut (some k) = if (s.progAt k).clip = none then 0 else (s.slotAt k).sample := by
  unfold State.programmeOut
  by_cases h : (s.progAt k).clip = none <;> simp [h, Option.isSome_iff_ne_none]

theorem coached_iff : s.coached p = true ↔
    ∃ r, (s.posAt p).relation = some r ∧ r.form = .monitoredBy ∧ r.mode ≠ .listen := by
  unfold State.coached State.monitorMode
  cases (s.posAt p).relation with
  | none => simp
  | some r =>
    by_cases hform : r.form = .monitoredBy
    · cases hmode : r.mode <;> simp [hform, hmode]
    · simp [hform]

theorem whisperPresent_iff : s.whisperPresent p = true ↔
    (∃ r, (s.posAt p).relation = some r ∧ r.form = .monitoredBy ∧ r.mode ≠ .listen) ∨
      ∃ i, s.streamOf .whisper p = some i ∧ (s.slotAt i).state ≠ .stopping := by
  unfold State.whisperPresent
  rw [Bool.or_eq_true, coached_iff]
  refine or_congr_right ?_
  cases hstream : s.streamOf .whisper p with
  | none => simp
  | some i =>
    obtain ⟨_, _, hbusy, _⟩ := streamOf_some s _ _ _ hstream
    have hsounding : (s.slotAt i).state.sounding = true ↔ (s.slotAt i).state ≠ .stopping := by
      cases hst : (s.slotAt i).state <;> simp_all [StreamState.sounding]
    simpa using hsounding

/-- What the supervisor of `p` gives, by the relation in which `p` is the agent. -/
def State.monitoredTerm (f : Relation → Int) : Int :=
  match (s.posAt p).relation with
  | some r => if r.form = .monitoredBy then f r else 0
  | none => 0

theorem liveWhisper_eq : s.liveWhisper p =
    s.monitoredTerm p (fun r => if r.mode = .listen then 0 else term (s.mixAt r.other).processed (r.gain.getD 0)) := by
  unfold State.liveWhisper State.coached State.monitorMode State.supervisorMic State.supervisorOf State.monitoredTerm
  cases (s.posAt p).relation with
  | none => rfl
  | some r =>
    by_cases hform : r.form = .monitoredBy
    · cases hmode : r.mode <;> simp [hform, hmode]
    · simp [hform]

theorem bargeTerm_eq : (if s.monitorMode p = some .barge then s.supervisorMic p else 0) =
    s.monitoredTerm p (fun r => if r.mode = .barge then (s.mixAt r.other).processed else 0) := by
  unfold State.monitorMode State.supervisorMic State.supervisorOf State.monitoredTerm
  cases (s.posAt p).relation with
  | none => rfl
  | some r => by_cases hform : r.form = .monitoredBy <;> simp [hform]

/-- The customer's voice as a connected position hears it (R44). -/
def State.voice : Int := if (s.posAt p).call = .connected then term (s.customer p) (s.posAt p).rxGain else 0

theorem reference_eq : s.reference p =
    sat16 (s.voice p + s.guarded p + (if s.callerHeard p then s.streamTerm .caller p else 0) + s.listenTerms p) := rfl

theorem listenTerms_eq : s.listenTerms p = match (s.posAt p).relation with
    | some r => if r.form = .monitoring then (s.mixAt r.other).processed + s.voice r.other else 0
    | none => 0 := by
  unfold State.listenTerms State.agentOf State.voice
  cases (s.posAt p).relation with
  | none => rfl
  | some r => by_cases hform : r.form = .monitoring <;> simp [hform]

end Sys2Proof.Machine
end

section
/-! SUPPORT. The state after the work of a frame, and the statement of the sums. -/

namespace Sys2Proof.Machine

/-! ### What stands while the frame is formed and sent -/

/-- `s` with what forming and sending a frame changes taken from `v` (R19, R40, R59, R155, R169). -/
def State.withSound (s v : State) : State :=
  { s with pos := v.pos, link := v.link, ec := v.ec, mix := v.mix, hwy := v.hwy, callQ := v.callQ }

theorem withSound_trans {s t v : State} (h : t = s.withSound t) (h' : v = t.withSound v) : v = s.withSound v :=
  calc v = t.withSound v := h'
    _ = (s.withSound t).withSound v := by rw [← h]
    _ = s.withSound v := rfl

theorem forPositions_withSound (f : Nat → State → State) (h : ∀ p t, f p t = t.withSound (f p t)) (s : State) :
    forPositions f s = s.withSound (forPositions f s) :=
  forPositions_keeps (fun t => t = s.withSound t) f (fun p t _ ht => withSound_trans ht (h p t)) s rfl

theorem muteStep_withSound (p : Nat) (t : State) : muteStep p t = t.withSound (muteStep p t) := by
  unfold muteStep
  dsimp only
  split <;> rfl

theorem sendHighway_withSound (rx : Option (Tab 32 Byte)) (t : State) :
    sendHighway rx t = t.withSound (sendHighway rx t) := rfl

theorem frameOut_withSound (s : State) : frameOut s = s.withSound (frameOut s) :=
  have hramps := forPositions_withSound muteStep muteStep_withSound s
  have hformed := forPositions_withSound (fun p t => t.modMix p (fun _ => (forPositions muteStep s).formed p))
    (fun _ _ => rfl) (forPositions muteStep s)
  have hsent := forPositions_withSound sendHeadset (fun _ _ => rfl) (formAll (forPositions muteStep s))
  withSound_trans hramps (withSound_trans hformed (withSound_trans hsent (sendHighway_withSound _ _)))

/-! ### What the slots leave of the store -/

/-- The store is as it was, but that the data of its fetch may be discarded at its arrival (R119). -/
def FetchStands (a b : Store) : Prop :=
  b = { a with fetch := b.fetch } ∧
    b.fetch.map (fun f => { f with live := false }) = a.fetch.map (fun f => { f with live := false })

theorem FetchStands.refl (a : Store) : FetchStands a a := ⟨rfl, rfl⟩

theorem FetchStands.trans {a b c : Store} (h : FetchStands a b) (h' : FetchStands b c) : FetchStands a c := by
  obtain ⟨hrest, hfetch⟩ := h
  obtain ⟨hrest', hfetch'⟩ := h'
  refine ⟨?_, hfetch'.trans hfetch⟩
  calc c = { b with fetch := c.fetch } := hrest'
    _ = { ({ a with fetch := b.fetch } : Store) with fetch := c.fetch } := by rw [← hrest]
    _ = { a with fetch := c.fetch } := rfl

theorem FetchStands.of_eq {a b : Store} (h : b = a) : FetchStands a b := h ▸ .refl a

theorem dropFetchOf_store (i : Nat) (s : State) : FetchStands s.store (dropFetchOf i s).store := by
  refine ⟨rfl, ?_⟩
  show ((s.store.fetch).map _).map _ = _
  cases s.store.fetch with
  | none => rfl
  | some f =>
    simp only [Option.map_some]
    split <;> rfl

/-- What follows when a slot reaches IDLE changes no more of the store than the end of its fetch (R123). -/
theorem reachIdle_store (i : Nat) (c : Cause) (s : State) : (reachIdle i c s).store = (dropFetchOf i s).store := by
  unfold reachIdle
  dsimp only
  split
  all_goals split <;> simp [dropFetchOf]

theorem stoppingFrame_store (i : Nat) (s : State) : FetchStands s.store (stoppingFrame i s).store := by
  unfold stoppingFrame
  dsimp only
  split
  · rw [reachIdle_store]
    exact dropFetchOf_store i (s.modSlot i _)
  · split <;> exact .of_eq (by simp)

theorem slotFrame_store (i : Nat) (s : State) : FetchStands s.store (slotFrame i s).store := by
  unfold slotFrame
  dsimp only
  split
  · exact .of_eq (by simp)
  · exact .of_eq (by simp)
  · split
    · split <;> exact .of_eq (by simp)
    · exact .of_eq (by simp)
  · split
    · rw [reachIdle_store]
      exact dropFetchOf_store i (s.modSlot i _)
    · exact .of_eq (by simp)
  · exact stoppingFrame_store i s

theorem forSlots_store (s : State) : FetchStands s.store (forSlots slotFrame s).store :=
  forSlots_keeps (fun t => FetchStands s.store t.store) slotFrame (fun i t _ ht => ht.trans (slotFrame_store i t)) s (.refl _)

/-! ### The state when the frame has begun -/

theorem mixAt_congr {s t : State} (h : t.mix = s.mix) (p : Nat) : t.mixAt p = s.mixAt p := congrArg (fun m => tget m p) h
theorem tmn_of_withSound {s t : State} (h : t = s.withSound t) : t.tmn = s.tmn := (congrArg State.tmn h).trans rfl
theorem store_of_withSound {s t : State} (h : t = s.withSound t) : t.store = s.store := (congrArg State.store h).trans rfl

section
variable (s : State)

/-- The slots' turn, which ends the work of the frame, leaves what it does not play (R122). -/
theorem slotsDone_keeps : (forSlots slotFrame (frameOut s)).tmn = s.tmn ∧
    (forSlots slotFrame (frameOut s)).pos = (frameOut s).pos ∧ (forSlots slotFrame (frameOut s)).mix = (frameOut s).mix :=
  ⟨(forSlots_field State.tmn slotFrame (fun _ _ => by simp) _).trans (tmn_of_withSound (frameOut_withSound s)),
    forSlots_field State.pos slotFrame (fun _ _ => by simp) _, forSlots_field State.mix slotFrame (fun _ _ => by simp) _⟩

theorem frameWork_words : (frameWork s).words = 0 := by rw [frameWork_eq, State.setWords_words]

theorem frameWork_store : FetchStands s.store (frameWork s).store := by
  have hslots := forSlots_store (frameOut s)
  rw [store_of_withSound (frameOut_withSound s)] at hslots
  rwa [frameWork_eq, State.setWords_store, State.modTmn_store]

theorem frameWork_posAt (p : Nat) : (frameWork s).posAt p = (forPositions muteStep s).posAt p := by
  obtain ⟨_, hpos, _⟩ := slotsDone_keeps s
  rw [frameWork_eq, State.setWords_posAt, State.modTmn_posAt, posAt_congr hpos, posAt_congr (frameOut_pos s)]

theorem formAll_mixAt (p : Nat) : (formAll s).mixAt p = if p < 16 then s.formed p else s.mixAt p :=
  forPositions_entry State.mixAt (fun _ => True) (fun p t => t.modMix p (fun _ => s.formed p)) (fun p _ => s.formed p)
    (fun _ _ _ => trivial) (fun p q t hne => by rw [State.modMix_mixAt, if_neg (fun h => hne h.1.symm)])
    (fun p t hp _ => by rw [State.modMix_mixAt, if_pos ⟨rfl, hp⟩]) s trivial p

/-- The mix record that stands when the frame has begun is the one formed after the ramps (R19, R40). -/
theorem frameWork_mixAt (p : Nat) (hp : p < 16) : (frameWork s).mixAt p = (forPositions muteStep s).formed p := by
  obtain ⟨_, _, hmix⟩ := slotsDone_keeps s
  have hout : (frameOut s).mix = (formAll (forPositions muteStep s)).mix := by
    unfold frameOut
    simp [forPositions_field State.mix sendHeadset (fun _ _ => by simp)]
  have hformed := formAll_mixAt (forPositions muteStep s) p
  rw [if_pos hp] at hformed
  rw [frameWork_eq, State.setWords_mixAt, State.modTmn_mixAt, ← hformed]
  exact mixAt_congr (hmix.trans hout) p

theorem frameOut_callQ (h : MuteLaw s) : (frameOut s).callQ =
    (List.range 16).foldl (fun q p => q.rampStepped (s.posAt p) p s.tmn.blockCount s.resetHeld) s.callQ := by
  have hout : (frameOut s).callQ = (forPositions muteStep s).callQ := by
    unfold frameOut
    simp [forPositions_field State.callQ sendHeadset (fun _ _ => by simp)]
  exact hout.trans ((ramps_stepped s).callQ fun p hp => (h p hp).2)

theorem frameBegun_eq {s t : State} (h : t.tmn = s.tmn) : (t.modTmn Timing.frameBegun).setWords 0 =
    { t with tmn := { s.tmn with frameTimer := 0, frames := s.tmn.frames + 1, boundary := none }, words := 0 } := by
  rw [← h]
  rfl

theorem frameWork_runs : FrameRuns s (frameOut s) (frameWork s) := by
  obtain ⟨htmn, _⟩ := slotsDone_keeps s
  have hbegun := frameBegun_eq htmn
  rw [← frameWork_eq] at hbegun
  exact ⟨frameOut_withSound s, hbegun⟩

end

/-- A state that keeps every field but those that a frame touches is the old state with those fields. -/
theorem State.eq_of_frame {s t : State} (hpending : t.pending = s.pending) (hmode : t.mode = s.mode)
    (hheld : t.resetHeld = s.resetHeld) (hpool : t.pool = s.pool) (hlev : t.lev = s.lev) (hparams : t.params = s.params)
    (hport : t.port = s.port) (hstore : t.store = { s.store with fetch := t.store.fetch }) (hwords : t.words = 0) :
    t = { s with tmn := t.tmn, pos := t.pos, link := t.link, ec := t.ec, mix := t.mix, hwy := t.hwy, clip := t.clip,
                 slot := t.slot, prog := t.prog, queue := t.queue, waitList := t.waitList,
                 store := { s.store with fetch := t.store.fetch }, words := 0, callQ := t.callQ, floorQ := t.floorQ,
                 maintQ := t.maintQ } := by
  rw [← hstore]
  cases t
  simp only at *
  subst_vars
  rfl

end Sys2Proof.Machine
end

section
open Sys2Proof Sys2Proof.Machine

/-- The sums of position `p` in the frame that begins, and what its record and its totals become (R44 to R55). -/
theorem frame_formed {s : State} (h : MuteLaw s) (p : Nat) (hp : p < 16) :
    (frameWork s).posAt p =
        { s.posAt p with ramp := if (s.posAt p).effMute then (s.posAt p).ramp - 1 else min 40 ((s.posAt p).ramp + 1) } ∧
      (frameWork s).mixAt p =
        { x := s.reference p, e := s.earpiece p, t := (forPositions muteStep s).trunkSend p,
          energy := (s.mixAt p).energy + (s.guarded p).natAbs * (s.guarded p).natAbs,
          presence := (s.mixAt p).presence + bit (s.whisperPresent p), raw := 0, processed := 0 } := by
  have hramps := ramps_stepped s
  constructor
  · obtain ⟨_, hle⟩ := h p hp
    rw [frameWork_posAt, hramps.posAt p, if_pos hp, ← stepRamp_ramp _ hle]
    exact stepRamp_keeps _
  · rw [frameWork_mixAt s p hp, State.formed]
    simp only [hramps.reference, hramps.earpiece, hramps.guarded, hramps.whisperPresent, hramps.mixAt]

/-- Settles O20: the arithmetic lemmas, the order of a frame boundary, and the readings from which the frame is formed. -/
theorem framesFormTheSums : Obligations.FramesFormTheSums := by
  refine ⟨sat16_eq_clamp, roundDiv_nearest, fun _ _ => ⟨rfl, rfl⟩, tableGain_shift, tableGain_nearest, tableGain_values,
    fun s hmute => ?_⟩
  intro begins sound stream heard customer voice
  have hbegins : begins ↔ s.tmn.mayBegin = true := (mayBegin_iff s.tmn).symm
  have hstream (k : StreamKind) (p : Nat) : stream k p = s.streamTerm k p := (streamTerm_eq s p k).symm
  have hheard (p : Nat) : heard p ↔ s.callerHeard p = true := (callerHeard_iff s p).symm
  have hvoice (p : Nat) : voice p = s.voice p := rfl
  refine ⟨streamOf_eq_some_iff s, fun hno => ?_, fun hb q hq => ?_, fun hb hfull => ?_, fun hb hwords hroom => ?_⟩
  · exact congrArg Host.Outcome.next (if_neg (fun h => hno (hbegins.2 h)))
  · have hlt : s.words < 16 := hq ▸ q.isLt
    have hword := frameBoundary_word (hbegins.1 hb) hlt
    rw [← hq] at hword
    exact congrArg Host.Outcome.next hword
  · exact congrArg Host.Outcome.next (frameBoundary_block (hbegins.1 hb) hfull)
  · have hframe := frameBoundary_frame (hbegins.1 hb) hwords hroom
    obtain ⟨hpending, hmode, hheld, hpool, hlev, hparams, hport⟩ := frameWork_keeps s
    obtain ⟨hstore, hfetch⟩ := frameWork_store s
    have hwords0 := frameWork_words s
    refine ⟨frameOut s, frameWork s, congrArg Host.Outcome.next hframe, frameWork_runs s,
      State.eq_of_frame hpending hmode hheld hpool hlev hparams hport hstore hwords0, hfetch, frameOut_callQ s hmute,
      fun p hp => ?_⟩
    obtain ⟨hpos, hmix⟩ := frame_formed hmute p hp
    have hrampOf : ((forPositions muteStep s).posAt p).ramp = _ :=
      congrArg Position.ramp ((frameWork_posAt s p).symm.trans hpos)
    have hramps := ramps_stepped s
    intro x m n ramp monitored listened live barge present prompted guarded
    have hn : n = _ := hmix
    have hlive : live = s.liveWhisper p := (liveWhisper_eq s p).symm
    have hbarge : barge = if s.monitorMode p = some .barge then s.supervisorMic p else 0 := (bargeTerm_eq s p).symm
    have hlistened : listened = s.listenTerms p := (listenTerms_eq s p).symm
    have hpresent : present ↔ s.whisperPresent p = true := (whisperPresent_iff s p).symm
    have hprompted : prompted ↔ s.promptPlays p = true := (promptPlays_iff s p).symm
    have hguarded : guarded = s.guarded p := by
      simp only [guarded, hlive, hstream]
      rfl
    have hprog (k : Nat) : (if (s.progAt k).clip = none then 0 else sound k) = s.programmeOut (some k) :=
      (programmeOut_some s k).symm
    clear_value n
    subst hn
    rw [hpresent, hprompted, hheard, hlistened, hbarge, hguarded, hvoice, hstream]
    refine ⟨hpos, fun hears => ?_, fun hears => ?_, rfl, fun hfree => ?_, fun hconn => ?_, fun hheldCall => ⟨fun hplays => ?_,
      fun hplays k hk => ?_⟩, ?_, fun hthere => ?_, fun hthere => ?_, rfl, rfl⟩
    · exact (reference_eq s p).trans (by rw [if_pos hears])
    · exact (reference_eq s p).trans (by rw [if_neg hears, add_zero])
    · exact hramps.trunkSend_free hfree
    · exact (hramps.trunkSend_connected hconn).trans (by rw [hrampOf])
    · exact (hramps.trunkSend_held hheldCall).trans (by rw [if_pos hplays])
    · rw [hprog, ← hk]
      exact (hramps.trunkSend_held hheldCall).trans (by rw [if_neg hplays])
    · rw [pow_two]
    · exact congrArg (fun b => m.presence + bit b) hthere
    · exact congrArg (fun b => m.presence + bit b) (Bool.eq_false_iff.2 hthere)

end

section
/-! SUPPORT. The ranges of the levels, the block totals and the link records (Tables 6-1, 6-2 and 9-3, R54): entry by
entry, and what a change of one entry leaves of them. -/

namespace Sys2Proof.Machine

/-- The laws of the links, the levels and the block totals. -/
def InRange (s : State) : Prop := LinkLaw s ∧ LevelLaw s ∧ TotalsLaw s

/-! ### What stands -/

/-- All that these laws speak of stands. -/
def LevelsStand (s t : State) : Prop :=
  t.link = s.link ∧ t.lev = s.lev ∧ t.params = s.params ∧ t.mix = s.mix ∧ t.words = s.words ∧
    t.tmn.frames = s.tmn.frames

theorem LevelsStand.refl (s : State) : LevelsStand s s := ⟨rfl, rfl, rfl, rfl, rfl, rfl⟩

theorem LevelsStand.trans {s t u : State} (h : LevelsStand s t) (h' : LevelsStand t u) : LevelsStand s u := by
  obtain ⟨hlink, hlev, hparams, hmix, hwords, hframes⟩ := h
  obtain ⟨hlink', hlev', hparams', hmix', hwords', hframes'⟩ := h'
  exact ⟨hlink'.trans hlink, hlev'.trans hlev, hparams'.trans hparams, hmix'.trans hmix, hwords'.trans hwords,
    hframes'.trans hframes⟩

theorem linkAt_congr {s t : State} (h : t.link = s.link) (p : Nat) : t.linkAt p = s.linkAt p :=
  congrArg (fun l => tget l p) h

theorem levAt_congr {s t : State} (h : t.lev = s.lev) (p : Nat) : t.levAt p = s.levAt p := congrArg (fun l => tget l p) h

theorem LinkLaw.of_eq {s t : State} (h : LinkLaw s) (hlink : t.link = s.link) : LinkLaw t := fun p hp => by
  rw [linkAt_congr hlink]; exact h p hp

theorem LevelLaw.of_eq {s t : State} (h : LevelLaw s) (hlev : t.lev = s.lev) (hparams : t.params = s.params) :
    LevelLaw t := by
  obtain ⟨hp, hl⟩ := h
  refine ⟨hparams ▸ hp, fun p hp => ?_⟩
  rw [levAt_congr hlev, hparams]
  exact hl p hp

theorem TotalsLaw.of_eq {s t : State} (h : TotalsLaw s) (hlev : t.lev = s.lev) (hmix : t.mix = s.mix)
    (hwords : t.words = s.words) (hframes : t.tmn.frames = s.tmn.frames) : TotalsLaw t := by
  have harrivals (p : Nat) : t.arrivals p = s.arrivals p := by simp only [State.arrivals, hwords, hframes]
  obtain ⟨hw, hf, hfull, hp⟩ := h
  refine ⟨hwords ▸ hw, hframes ▸ hf, hwords ▸ hframes ▸ hfull, fun p hlt => ?_⟩
  rw [levAt_congr hlev, mixAt_congr hmix, harrivals, hframes]
  exact hp p hlt

theorem InRange.stand {s t : State} (hs : InRange s) (h : LevelsStand s t) : InRange t := by
  obtain ⟨hlink, hlev, hparams, hmix, hwords, hframes⟩ := h
  obtain ⟨hlinks, hlevels, htotals⟩ := hs
  exact ⟨hlinks.of_eq hlink, hlevels.of_eq hlev hparams, htotals.of_eq hlev hmix hwords hframes⟩

theorem InRange.words_le {s : State} (h : InRange s) : s.words ≤ 16 := by
  obtain ⟨_, _, hwords, _⟩ := h
  exact hwords

/-! ### One entry -/

/-- A link record within Table 9-3: what `LinkLaw` says of each. -/
def Link.InRange (l : Link) : Prop :=
  l.goodRun ≤ 63 ∧ l.badRun ≤ 7 ∧ Fits16 l.held ∧ l.change ≤ 159 ∧ (l.state = .probing ↔ 0 < l.goodRun) ∧
    (l.state ≠ .up → l.badRun = 0 ∧ l.held = 0 ∧ l.stable = false ∧ l.change = 0)

theorem linkLaw_iff (s : State) : LinkLaw s ↔ ∀ p, p < 16 → (s.linkAt p).InRange := Iff.rfl

/-- The level parameters within Table 6-2. -/
def LevelParams.InRange (par : LevelParams) : Prop :=
  par.voice ≤ 96 ∧ par.bleed ≤ 96 ∧ par.attenMost ≤ 96 ∧ 1 ≤ par.interval ∧ par.interval ≤ 64 ∧ par.guard ≤ 96 ∧
    par.leak ≤ 255

/-- The record of position `p` within Table 6-1, with an attenuation of at most `most`: what `LevelLaw` says of each. -/
def Level.InRange (most p : Nat) (l : Level) : Prop :=
  l.floor ≤ 287 ∧ l.rise ≤ 63 ∧ l.hang ≤ 10 ∧ l.voice = (l.raw || decide (0 < l.hang)) ∧ l.atten ≤ most ∧
    l.guard ≤ 48 ∧ l.fall ≤ 39 ∧ l.neighbours.length ≤ 4 ∧ l.neighbours.Nodup ∧ (∀ q, q ∈ l.neighbours → q < 16 ∧ q ≠ p)

theorem levelLaw_iff (s : State) :
    LevelLaw s ↔ s.params.InRange ∧ ∀ p, p < 16 → (s.levAt p).InRange s.params.attenMost p := Iff.rfl

theorem LinkLaw.modLink {s : State} (h : LinkLaw s) (p : Nat) (f : Link → Link)
    (hf : (s.linkAt p).InRange → (f (s.linkAt p)).InRange) : LinkLaw (s.modLink p f) := by
  intro q hq
  rw [State.modLink_linkAt]
  split
  next hpq => exact hf (h p hpq.2)
  next => exact h q hq

theorem LevelLaw.modLev {s : State} (h : LevelLaw s) (p : Nat) (f : Level → Level)
    (hf : (s.levAt p).InRange s.params.attenMost p → (f (s.levAt p)).InRange s.params.attenMost p) :
    LevelLaw (s.modLev p f) := by
  obtain ⟨hpar, hlev⟩ := h
  refine ⟨hpar, fun q hq => ?_⟩
  rw [State.modLev_levAt]
  split
  next hpq =>
    obtain ⟨rfl, hp⟩ := hpq
    exact hf (hlev p hp)
  next => exact hlev q hq

end Sys2Proof.Machine
end

section
/-! SUPPORT. The word of a port: what it makes of the link record, and the one arrival that it adds to the block totals
(R95, R96, R154, R156 to R164). -/

namespace Sys2Proof.Machine

/-! ### The samples -/

theorem fits16_sat16 (v : Int) : Fits16 (sat16 v) := sat16_range v

theorem inboundSample_fits (w : BitVec 19) : Fits16 (inboundSample w) := by
  have hlo := BitVec.le_toInt (w.extractLsb' 3 16)
  have hhi := BitVec.toInt_lt (x := w.extractLsb' 3 16)
  unfold Fits16 inboundSample
  omega

/-- A sample of 16 bits adds at most 2^30 to a block energy (R96). -/
theorem Fits16.square_le {v : Int} (h : Fits16 v) : v.natAbs * v.natAbs ≤ 2 ^ 30 := by
  obtain ⟨hlo, hhi⟩ := h
  have habs : v.natAbs ≤ 2 ^ 15 := by omega
  calc v.natAbs * v.natAbs ≤ 2 ^ 15 * 2 ^ 15 := Nat.mul_le_mul habs habs
    _ = 2 ^ 30 := by norm_num

/-- The cancelled sample fits in 16 bits where the microphone sample does (R61, R62). -/
theorem cancel_fits (p : Nat) (d : Int) (s : State) (hd : Fits16 d) : Fits16 (cancel p d s).2 := by
  unfold cancel
  dsimp only
  split
  · exact fits16_zero
  · split
    · exact hd
    · split <;> exact fits16_sat16 _

/-! ### The link record -/

theorem debounce_linkLaw (p : Nat) (b : Bool) (s : State) (hup : (s.linkAt p).state = .up) (h : LinkLaw s) :
    LinkLaw (debounce p b s) := by
  unfold debounce
  dsimp only
  split
  · exact h.modLink p _ fun ⟨hg, hb, hh, _, hrun, _⟩ => ⟨hg, hb, hh, by simp, hrun, fun hne => absurd hup hne⟩
  · split
    next hlt =>
      exact h.modLink p _ fun ⟨hg, hb, hh, _, hrun, _⟩ =>
        ⟨hg, hb, hh, Nat.le_of_lt_succ hlt, hrun, fun hne => absurd hup hne⟩
    next =>
      have hset : LinkLaw (s.modLink p (fun l => { l with stable := b, change := 0 })) :=
        h.modLink p _ fun ⟨hg, hb, hh, _, hrun, _⟩ => ⟨hg, hb, hh, by simp, hrun, fun hne => absurd hup hne⟩
      split
      · exact hset.of_eq (by simp)
      · exact hset

theorem linkUp_link (p : Nat) (v : Int) (b : Bool) (s : State) : (linkUp p v b s).link =
    (s.modLink p (fun l =>
      { l with state := .up, goodRun := 0, badRun := 0, held := v, stable := b, change := 0 })).link := by
  simp [linkUp]

theorem linkDown_link (p : Nat) (s : State) : (linkDown p s).link =
    (s.modLink p (fun l =>
      { l with state := .down, goodRun := 0, badRun := 0, held := 0, stable := false, change := 0 })).link := by
  simp [linkDown]

/-- A word hands on a sample of 16 bits, after a change of the link record within its ranges (R158 to R164). -/
theorem headsetWord_handsOn (p : Nat) (w : BitVec 19) (s : State) (hp : p < 16) (h : LinkLaw s) :
    ∃ d t, headsetWord p w s = handOn p d t ∧ Fits16 d ∧ LinkLaw t ∧ t.lev = s.lev ∧ t.mix = s.mix := by
  unfold headsetWord
  split
  · unfold goodWord
    dsimp only
    split
    next hdown =>
      refine ⟨0, _, rfl, fits16_zero, h.modLink p _ fun ⟨_, hb, hh, hc, _, hidle⟩ => ?_, rfl, rfl⟩
      exact ⟨by simp, hb, hh, hc, by simp, fun _ => hidle (by simp [hdown])⟩
    next hprobing =>
      split
      next =>
        refine ⟨_, _, rfl, inboundSample_fits w, LinkLaw.of_eq ?_ (linkUp_link ..), by simp, by simp⟩
        exact h.modLink p _ fun _ => ⟨by simp, by simp, inboundSample_fits w, by simp, by simp, by simp⟩
      next hrun =>
        refine ⟨0, _, rfl, fits16_zero, h.modLink p _ fun ⟨_, hb, hh, hc, _, hidle⟩ => ?_, rfl, rfl⟩
        exact ⟨by simp only [Config.upRun] at hrun; simp only; omega, hb, hh, hc, by simp [hprobing], hidle⟩
    next hup =>
      refine ⟨_, _, rfl, inboundSample_fits w, debounce_linkLaw p _ _ (by simp [hup, hp]) ?_, by simp, by simp⟩
      exact h.modLink p _ fun ⟨hg, _, _, hc, hrun, _⟩ =>
        ⟨hg, by simp, inboundSample_fits w, hc, hrun, fun hne => absurd hup hne⟩
  · unfold badWord
    dsimp only
    split
    next => exact ⟨0, s, rfl, fits16_zero, h, rfl, rfl⟩
    next hprobing =>
      refine ⟨0, _, rfl, fits16_zero, h.modLink p _ fun ⟨_, hb, hh, hc, _, hidle⟩ => ?_, rfl, rfl⟩
      exact ⟨by simp, hb, hh, hc, by simp, fun _ => hidle (by simp [hprobing])⟩
    next hup =>
      split
      next =>
        refine ⟨0, _, rfl, fits16_zero, LinkLaw.of_eq ?_ (linkDown_link ..), by simp, by simp⟩
        exact h.modLink p _ fun _ => ⟨by simp, by simp, fits16_zero, by simp, by simp, by simp⟩
      next hrun =>
        obtain ⟨_, _, hheld, _⟩ := h p hp
        refine ⟨_, _, rfl, hheld, h.modLink p _ fun ⟨hg, _, hh, hc, hrun', _⟩ => ?_, rfl, rfl⟩
        exact ⟨hg, by simp only [Config.downRun] at hrun; simp only; omega, hh, hc, hrun', fun hne => absurd hup hne⟩

/-! ### The arrival -/

/-- One arrival of `p` has joined its block totals: at most 2^30 of energy and one of the adapting count (R96). -/
def Arrived (p : Nat) (s t : State) : Prop :=
  (∃ e a, e ≤ 2 ^ 30 ∧ a ≤ 1 ∧
    t.levAt p = { s.levAt p with energy := (s.levAt p).energy + e, adapting := (s.levAt p).adapting + a }) ∧
  (∀ q, q ≠ p → t.levAt q = s.levAt q) ∧
  ∀ q, (t.mixAt q).presence = (s.mixAt q).presence

theorem modMix_presence (p : Nat) (f : Mix → Mix) (hf : ∀ m, (f m).presence = m.presence) (s : State) (q : Nat) :
    ((s.modMix p f).mixAt q).presence = (s.mixAt q).presence := by
  rw [State.modMix_mixAt]
  split
  next h => rw [hf, h.1]
  next => rfl

theorem handOn_presence (p : Nat) (d : Int) (s : State) (q : Nat) :
    ((handOn p d s).mixAt q).presence = (s.mixAt q).presence := by
  have hmix (t : State) : (cancel p d t).1.mix = t.mix := by simp
  refine (modMix_presence p _ ?_ _ q).trans ((congrArg Mix.presence (mixAt_congr (hmix _) q)).trans
    (modMix_presence p _ ?_ s q))
  all_goals exact fun _ => rfl

theorem handOn_arrived (p : Nat) (d : Int) (s : State) (hp : p < 16) (hd : Fits16 d) : Arrived p s (handOn p d s) := by
  have hpres := handOn_presence p d s
  have hlev (t : State) : (cancel p d t).1.lev = t.lev := by simp
  unfold handOn at hpres ⊢
  dsimp only at hpres ⊢
  generalize hu : s.modMix p (fun m => { m with raw := d }) = u at hpres ⊢
  have hulev : (cancel p d u).1.lev = s.lev := by rw [hlev, ← hu, State.modMix_lev]
  have he := (cancel_fits p d u hd).square_le
  refine ⟨⟨_, bit (((cancel p d u).1.ecAt p).state == .adapting), he, ?_, ?_⟩, fun q hq => ?_, hpres⟩
  · cases ((cancel p d u).1.ecAt p).state == CancellerState.adapting <;> simp [bit]
  · simp [suppress, hp, levAt_congr hulev]
  · simp [suppress, Ne.symm hq, levAt_congr hulev]

theorem headsetWord_arrived (p : Nat) (w : BitVec 19) (s : State) (hp : p < 16) (h : LinkLaw s) :
    Arrived p s (headsetWord p w s) ∧ LinkLaw (headsetWord p w s) := by
  obtain ⟨d, t, heq, hd, hlink, hlev, hmix⟩ := headsetWord_handsOn p w s hp h
  rw [heq]
  refine ⟨?_, hlink.of_eq (by simp)⟩
  simpa only [Arrived, levAt_congr hlev, mixAt_congr hmix] using handOn_arrived p d t hp hd

theorem Arrived.levelLaw {p : Nat} {s t : State} (h : Arrived p s t) (hparams : t.params = s.params) (hs : LevelLaw s) :
    LevelLaw t := by
  obtain ⟨⟨e, a, _, _, hown⟩, hother, _⟩ := h
  obtain ⟨hpar, hlev⟩ := hs
  refine ⟨hparams ▸ hpar, fun q hq => ?_⟩
  rw [hparams]
  by_cases hqp : q = p
  · subst hqp
    rw [hown]
    exact hlev q hq
  · rw [hother q hqp]
    exact hlev q hq

/-! ### The word of the port that is next -/

theorem takeWord_levAt (p : Nat) (w : BitVec 19) (s : State) (q : Nat) :
    (takeWord p w s).levAt q = (headsetWord p w s).levAt q := rfl

theorem takeWord_arrivals (w : BitVec 19) (s : State) (q : Nat) :
    (takeWord s.words w s).arrivals q = if q = s.words then s.tmn.frames else s.arrivals q := by
  have htmn : (takeWord s.words w s).tmn = s.tmn := by simp
  rw [State.arrivals, State.arrivals, htmn, takeWord, State.setWords_words]
  split_ifs <;> omega

/-- The word of the port that is next in the frame adds the one arrival that the count of words then grants it (R154). -/
theorem takeWord_totalsLaw (w : BitVec 19) (s : State) (hnext : s.words < 16)
    (harrived : Arrived s.words s (headsetWord s.words w s)) (h : TotalsLaw s) : TotalsLaw (takeWord s.words w s) := by
  obtain ⟨⟨e, a, he, ha, hown⟩, hother, hpresence⟩ := harrived
  obtain ⟨_, hframes, hfull, hp⟩ := h
  have hbegun : s.tmn.frames ≠ 0 := fun h0 => Nat.ne_of_lt hnext (hfull h0)
  have htmn : (takeWord s.words w s).tmn = s.tmn := by simp
  refine ⟨hnext, htmn ▸ hframes, fun h0 => absurd (htmn ▸ h0) hbegun, fun q hq => ?_⟩
  obtain ⟨hlevel, henergy, hadapting, hpres⟩ := hp q hq
  rw [takeWord_arrivals, htmn]
  show ((headsetWord s.words w s).levAt q).level ≤ 287 ∧ _ ∧ _ ∧ ((headsetWord s.words w s).mixAt q).presence ≤ _
  rw [hpresence]
  by_cases hqw : q = s.words
  · subst hqw
    have hbefore : s.arrivals s.words = s.tmn.frames - 1 := if_neg (Nat.lt_irrefl _)
    rw [hbefore] at henergy hadapting
    rw [if_pos rfl, takeWord_levAt, hown]
    refine ⟨hlevel, ?_, by simp only; omega, hpres⟩
    calc (s.levAt s.words).energy + e ≤ (s.tmn.frames - 1) * 2 ^ 30 + 2 ^ 30 := Nat.add_le_add henergy he
      _ = s.tmn.frames * 2 ^ 30 := by omega
  · rw [if_neg hqw, takeWord_levAt, hother q hqw]
    exact ⟨hlevel, henergy, hadapting, hpres⟩

theorem takeWord_inRange (p : Nat) (w : BitVec 19) (s : State) (hp : p < 16) (hnext : s.words = p) (h : InRange s) :
    InRange (takeWord p w s) := by
  subst hnext
  obtain ⟨hlink, hlevel, htotals⟩ := h
  obtain ⟨harrived, hlink'⟩ := headsetWord_arrived s.words w s hp hlink
  exact ⟨hlink'.of_eq rfl, (harrived.levelLaw (by simp) hlevel).of_eq rfl rfl, takeWord_totalsLaw w s hp harrived htotals⟩

theorem fillWords_inRange (n : Nat) (s : State) (hn : s.words + n ≤ 16) (h : InRange s) : InRange (fillWords n s) := by
  induction n generalizing s with
  | zero => exact h
  | succ n ih =>
    refine ih _ ?_ (takeWord_inRange _ 0 s (by omega) rfl h)
    show s.words + 1 + n ≤ 16
    omega

theorem missingWords_inRange (s : State) (h : InRange s) : InRange (missingWords s) := by
  have hwords := h.words_le
  exact fillWords_inRange _ s (by omega) h

theorem InRange.missingWords_full {s : State} (h : InRange s) : (missingWords s).words = 16 := by
  have hwords := h.words_le
  rw [missingWords_words]
  omega

theorem headsetWordArrival_inRange (p : Fin 16) (w : BitVec 19) (s : State) (h : InRange s) :
    InRange (headsetWordArrival p.val w s) := by
  have hp := p.isLt
  rcases headsetWordArrival_cases p.val w s with ⟨_, heq⟩ | ⟨hle, heq⟩
  · rw [heq]; exact h
  · rw [heq]
    exact takeWord_inRange _ w _ hp (by rw [fillWords_words]; omega) (fillWords_inRange _ s (by omega) h)

end Sys2Proof.Machine
end

section
/-! SUPPORT. The end of a block in the Level and Bleed Unit (Table 6-5), the work of a frame, and the timing events: each
keeps the levels, the block totals and the link records within their ranges. -/

namespace Sys2Proof.Machine

/-! ### One turn of the block end -/

/-- The level of a value below 2^36 is at most 287 (R94). -/
theorem lvl_le {z : Nat} (hpos : z ≠ 0) (hlt : z < 2 ^ 36) : lvl z ≤ 287 := by
  have hlog : Nat.log2 z < 36 := (Nat.log2_lt hpos).2 hlt
  have hrest : (z - 2 ^ Nat.log2 z) * 8 / 2 ^ Nat.log2 z < 8 := by
    have hbelow : z < 2 ^ (Nat.log2 z + 1) := Nat.lt_log2_self
    rw [Nat.pow_succ] at hbelow
    exact Nat.div_lt_of_lt_mul (by omega)
  unfold lvl
  omega

/-- A record of position `p` in range, with the block totals of at most `n` arrivals (R54, R96, R97). -/
def Level.Within (n most p : Nat) (l : Level) : Prop :=
  l.InRange most p ∧ l.level ≤ 287 ∧ l.energy ≤ n * 2 ^ 30 ∧ l.adapting ≤ n

/-- Level, noise floor and voice stay in range where the energy is that of one block (R97 to R99). -/
theorem measure_within {par : LevelParams} {up : Bool} {most p : Nat} {l : Level} (hpar : par.InRange)
    (h : l.Within 40 most p) : (l.measure par up).Within 40 most p := by
  obtain ⟨_, _, _, _, hinterval, _⟩ := hpar
  obtain ⟨⟨hfloor, hrise, hhang, _, hatten, hguard, hfall, hneighbours⟩, hlevel, henergy, hadapting⟩ := h
  have hlam : (if up then lvl (l.energy + 1) else 0) ≤ 287 := by
    have hlvl : lvl (l.energy + 1) ≤ 287 := lvl_le (by omega) (by omega)
    split <;> omega
  unfold Level.measure
  dsimp only
  generalize (if up then lvl (l.energy + 1) else 0) = lam at *
  refine ⟨⟨?_, ?_, ?_, rfl, hatten, hguard, hfall, hneighbours⟩, hlam, henergy, hadapting⟩
  · dsimp only
    split_ifs <;> dsimp only <;> omega
  · dsimp only
    split_ifs <;> dsimp only <;> omega
  · dsimp only
    split_ifs <;> omega

/-- The attenuation stays at most `A_max`, to which its target is held (R102). -/
theorem slew_within {par : LevelParams} {n p : Nat} {l : Level} (h : l.Within n par.attenMost p) :
    (l.slew par).Within n par.attenMost p := by
  obtain ⟨⟨hfloor, hrise, hhang, hvoice, hatten, hrest⟩, htotals⟩ := h
  have htarget : (if l.voice && !l.bleed then 0 else par.attenMost) ≤ par.attenMost := by split <;> omega
  unfold Level.slew
  refine ⟨⟨hfloor, hrise, hhang, hvoice, ?_, hrest⟩, htotals⟩
  dsimp only
  generalize (if l.voice && !l.bleed then 0 else par.attenMost) = target at *
  split_ifs <;> omega

/-- The guard stays at most 48, and its fall count below 40 (R104). -/
theorem guardStep_within {openTrunk leak : Bool} {n most p : Nat} {l : Level} (h : l.Within n most p) :
    (l.guardStep openTrunk leak).Within n most p := by
  obtain ⟨⟨hfloor, hrise, hhang, hvoice, hatten, hguard, hfall, hneighbours⟩, htotals⟩ := h
  have hset (g f : Nat) (hg : g ≤ 48) (hf : f ≤ 39) : ({ l with guard := g, fall := f } : Level).Within n most p :=
    ⟨⟨hfloor, hrise, hhang, hvoice, hatten, hg, hf, hneighbours⟩, htotals⟩
  unfold Level.guardStep
  split_ifs
  · exact hset _ _ hguard hfall
  · exact hset _ _ (Nat.min_le_left ..) (by omega)
  · exact hset _ _ hguard hfall
  · exact hset _ _ (by omega) (by omega)
  · exact hset _ _ hguard (by omega)

/-! ### The end of a block -/

/-- The parameters and every position's levels and block totals are in range, after at most `n` arrivals and frames of the
block (R54, R96). -/
def LevelsWithin (n : Nat) (s : State) : Prop :=
  s.params.InRange ∧ ∀ p, p < 16 → (s.levAt p).Within n s.params.attenMost p ∧ (s.mixAt p).presence ≤ n

theorem LevelsWithin.levelLaw {n : Nat} {s : State} (h : LevelsWithin n s) : LevelLaw s := by
  obtain ⟨hpar, hp⟩ := h
  refine ⟨hpar, fun p hlt => ?_⟩
  obtain ⟨⟨hrange, _⟩, _⟩ := hp p hlt
  exact hrange

theorem arrivals_le (s : State) (p : Nat) : s.arrivals p ≤ s.tmn.frames := by
  unfold State.arrivals
  split <;> omega

theorem InRange.levelsWithin {s : State} (h : InRange s) : LevelsWithin 40 s := by
  obtain ⟨_, ⟨hpar, hlevels⟩, _, hframes, _, htotals⟩ := h
  refine ⟨hpar, fun p hp => ?_⟩
  obtain ⟨hlevel, henergy, hadapting, hpresence⟩ := htotals p hp
  have harrivals : s.arrivals p ≤ 40 := (arrivals_le s p).trans hframes
  exact ⟨⟨hlevels p hp, hlevel, henergy.trans (Nat.mul_le_mul_right _ harrivals), hadapting.trans harrivals⟩,
    hpresence.trans hframes⟩

theorem LevelsWithin.of_eq {n : Nat} {s t : State} (h : LevelsWithin n s) (hlev : t.lev = s.lev)
    (hparams : t.params = s.params) (hmix : t.mix = s.mix) : LevelsWithin n t := by
  obtain ⟨hpar, hp⟩ := h
  refine ⟨hparams ▸ hpar, fun p hlt => ?_⟩
  rw [levAt_congr hlev, mixAt_congr hmix, hparams]
  exact hp p hlt

theorem LevelsWithin.modLev {n : Nat} {s : State} (h : LevelsWithin n s) (p : Nat) (f : Level → Level)
    (hf : (s.levAt p).Within n s.params.attenMost p → (f (s.levAt p)).Within n s.params.attenMost p) :
    LevelsWithin n (s.modLev p f) := by
  obtain ⟨hpar, hp⟩ := h
  refine ⟨hpar, fun q hq => ?_⟩
  obtain ⟨hlev, hpresence⟩ := hp q hq
  refine ⟨?_, hpresence⟩
  rw [State.modLev_levAt]
  split
  next hpq =>
    obtain ⟨rfl, _⟩ := hpq
    exact hf hlev
  next => exact hlev

/-- The block totals of `p` restart (R54, R96). -/
def restartTotals (p : Nat) (s : State) : State :=
  (s.modLev p (fun l => { l with energy := 0, adapting := 0 })).modMix p (fun m => { m with energy := 0, presence := 0 })

theorem restartTotals_within (n p : Nat) (s : State) (h : LevelsWithin n s) : LevelsWithin n (restartTotals p s) := by
  obtain ⟨hpar, hp⟩ := h.modLev p (fun l => { l with energy := 0, adapting := 0 })
    fun ⟨hrange, hlevel, _, _⟩ => ⟨hrange, hlevel, by simp, by simp⟩
  refine ⟨hpar, fun q hq => ?_⟩
  obtain ⟨hlev, hpresence⟩ := hp q hq
  refine ⟨hlev, ?_⟩
  rw [restartTotals, State.modMix_mixAt]
  split
  · simp
  · exact hpresence

theorem restartTotals_restarts (s : State) (q : Nat) (hq : q < 16) :
    ((forPositions restartTotals s).levAt q).energy = 0 ∧ ((forPositions restartTotals s).levAt q).adapting = 0 ∧
      ((forPositions restartTotals s).mixAt q).presence = 0 := by
  refine foldl_range_each
    (fun q t => (t.levAt q).energy = 0 ∧ (t.levAt q).adapting = 0 ∧ (t.mixAt q).presence = 0) restartTotals 16
    (fun p t hp => ?_) (fun p q t hne h => ?_) s q hq
  · simp [restartTotals, hp]
  · simpa [restartTotals, Ne.symm hne] using h

/-- The end of a block leaves the levels in range and every block total at 0 (R97 to R104, R54, R96). -/
theorem blockEndLevels_within (s : State) (h : LevelsWithin 40 s) : LevelsWithin 0 (blockEndLevels s) := by
  have hturns (f : Nat → State → State) (hf : ∀ p t, LevelsWithin 40 t → LevelsWithin 40 (f p t)) {t : State}
      (ht : LevelsWithin 40 t) : LevelsWithin 40 (forPositions f t) := forPositions_keeps _ f (fun p t _ => hf p t) t ht
  obtain ⟨u, hu, heq⟩ : ∃ u, LevelsWithin 40 u ∧ blockEndLevels s = forPositions restartTotals u := by
    refine ⟨_, ?_, rfl⟩
    refine hturns _ (fun p t ht => ht.modLev p _ guardStep_within) ?_
    refine hturns _ (fun p t ht => ht.modLev p _ slew_within) ?_
    refine hturns _ (fun p t ht => ht.modLev p _ id) ?_
    exact hturns _ (fun p t ht => ht.modLev p _ (measure_within ht.1)) h
  obtain ⟨hpar, hp⟩ := hturns restartTotals (restartTotals_within 40) hu
  rw [heq]
  refine ⟨hpar, fun q hq => ?_⟩
  obtain ⟨⟨hrange, hlevel, _⟩, _⟩ := hp q hq
  obtain ⟨henergy, hadapting, hpresence⟩ := restartTotals_restarts u q hq
  exact ⟨⟨hrange, hlevel, by omega, by omega⟩, by omega⟩

/-! ### Block boundary and grace timer -/

theorem blockWork_frames (s : State) : (blockWork s).tmn.frames = 0 := by simp [blockWork, Timing.countGrace]

theorem graceExpiry_stands (s : State) : LevelsStand s (graceExpiry s) := by
  rcases graceExpiry_cases s with ⟨_, h⟩ | ⟨_, h⟩ <;> simp [LevelsStand, h]

theorem blockBoundary_inRange (s : State) (h : InRange s) : InRange (blockBoundary s) := by
  rcases blockBoundary_cases s with ⟨_, heq⟩ | ⟨_, heq⟩
  · have hfilled := missingWords_inRange s h
    have hlevels := hfilled.levelsWithin
    obtain ⟨hlink, _⟩ := hfilled
    rw [heq]
    refine InRange.stand (s := blockWork (missingWords s)) ?_ (graceExpiry_stands _)
    have hwithin : LevelsWithin 0 (blockWork (missingWords s)) :=
      blockEndLevels_within _ (hlevels.of_eq rfl rfl rfl)
    have hfull : (blockWork (missingWords s)).words = 16 := by simp [h.missingWords_full]
    have hframes := blockWork_frames (missingWords s)
    refine ⟨hlink.of_eq (by simp), hwithin.levelLaw, by omega, by omega, fun _ => hfull, fun p hp => ?_⟩
    obtain ⟨_, hlevels⟩ := hwithin
    obtain ⟨⟨_, hlevel, henergy, hadapting⟩, hpresence⟩ := hlevels p hp
    exact ⟨hlevel, henergy.trans (Nat.mul_le_mul_right _ (Nat.zero_le _)), hadapting.trans (Nat.zero_le _),
      hpresence.trans (Nat.zero_le _)⟩
  · rw [heq]; exact h

theorem makeBoundary_inRange (n : NextFrame) (s : State) (h : InRange s) : InRange (makeBoundary n s) :=
  (blockBoundary_inRange s h).stand ⟨rfl, rfl, rfl, rfl, rfl, rfl⟩

theorem graceTimerExpiry_inRange (s : State) (h : InRange s) : InRange (graceTimerExpiry s) := by
  unfold graceTimerExpiry
  split_ifs
  · exact h.stand (graceExpiry_stands s)
  · exact blockBoundary_inRange s h
  · exact h

/-! ### Frame boundary -/

theorem sendHeadset_linkLaw (p : Nat) (s : State) (h : LinkLaw s) : LinkLaw (sendHeadset p s) := by
  have hmodEc (f : Canceller → Canceller) : LinkLaw (s.modEc p f) := h.of_eq rfl
  exact (hmodEc _).modLink p _ id

/-- Of the link records a frame changes the outbound words alone (R155). -/
theorem frameWork_linkLaw (s : State) (h : LinkLaw s) : LinkLaw (frameWork s) := by
  have hramps : LinkLaw (forPositions muteStep s) :=
    h.of_eq (forPositions_field State.link muteStep (fun _ _ => by simp) s)
  have hsent : LinkLaw (forPositions sendHeadset (formAll (forPositions muteStep s))) :=
    forPositions_keeps LinkLaw sendHeadset (fun p t _ => sendHeadset_linkLaw p t) _ (hramps.of_eq (by simp))
  have hout : LinkLaw (frameOut s) := hsent.of_eq (by simp [frameOut])
  have hslots : LinkLaw (forSlots slotFrame (frameOut s)) :=
    hout.of_eq (forSlots_field State.link slotFrame (fun _ _ => by simp) _)
  rw [frameWork_eq]
  exact hslots.of_eq (by rw [State.setWords_link, State.modTmn_link])

/-- A frame adds at most one to the presence count, and begins with no word of its own arrived (R53, R54, R154). -/
theorem frameWork_totalsLaw (s : State) (hwords : s.words = 16) (hframes : s.tmn.frames < 40) (h : TotalsLaw s) :
    TotalsLaw (frameWork s) := by
  obtain ⟨_, _, _, hp⟩ := h
  obtain ⟨htmn, _⟩ := slotsDone_keeps s
  have hbegun : (frameWork s).tmn.frames = s.tmn.frames + 1 := by
    rw [frameWork_eq]
    exact congrArg (fun t => t.frames + 1) htmn
  have hwords' := frameWork_words s
  refine ⟨by omega, by omega, fun h0 => absurd h0 (by omega), fun p hlt => ?_⟩
  obtain ⟨hlevel, henergy, hadapting, hpresence⟩ := hp p hlt
  have harrivals : (frameWork s).arrivals p = s.arrivals p := by
    rw [State.arrivals, State.arrivals, hbegun, hwords', hwords]
    simp [hlt]
  have hpresent : ((frameWork s).mixAt p).presence = (s.mixAt p).presence + bit ((forPositions muteStep s).whisperPresent p) := by
    rw [frameWork_mixAt s p hlt, State.formed, (ramps_stepped s).mixAt]
  have hbit (b : Bool) : bit b ≤ 1 := by cases b <;> decide
  rw [harrivals, levAt_congr (show (frameWork s).lev = s.lev by simp), hpresent, hbegun]
  exact ⟨hlevel, henergy, hadapting, Nat.add_le_add hpresence (hbit _)⟩

theorem frameWork_inRange (s : State) (hwords : s.words = 16) (hframes : s.tmn.frames < 40) (h : InRange s) :
    InRange (frameWork s) := by
  obtain ⟨hlink, hlevel, htotals⟩ := h
  exact ⟨frameWork_linkLaw s hlink, hlevel.of_eq (by simp) (by simp), frameWork_totalsLaw s hwords hframes htotals⟩

/-- After the words of the frame and the end of a complete block, the next frame may begin (R154, R173, R182). -/
theorem blockBoundary_ready (s : State) (hwords : s.words = 16) :
    (blockBoundary s).words = 16 ∧ (blockBoundary s).tmn.frames < 40 := by
  rcases blockBoundary_cases s with ⟨_, heq⟩ | ⟨hlt, heq⟩
  · obtain ⟨_, _, _, _, hw, hf⟩ := graceExpiry_stands (blockWork (missingWords s))
    have hframes := blockWork_frames (missingWords s)
    rw [heq, hw, hf, hframes]
    simp [missingWords_words, hwords]
  · rw [heq]; exact ⟨hwords, hlt⟩

theorem frameBoundary_inRange (s : State) (h : InRange s) : InRange (frameBoundary s) := by
  unfold frameBoundary
  split
  · have hfilled := missingWords_inRange s h
    obtain ⟨hwords, hframes⟩ := blockBoundary_ready _ h.missingWords_full
    exact frameWork_inRange _ hwords hframes (blockBoundary_inRange _ hfilled)
  · exact h

/-! ### Timing -/

theorem lock_inRange (rx : Tab 32 Byte) (s : State) (h : InRange s) : InRange (lock rx s) := by
  unfold lock
  dsimp only
  refine InRange.stand (s := if Config.lockPhase ≤ s.tmn.frameTimer then makeBoundary (.line rx) s else s) ?_
    (by simp [LevelsStand, postBoth])
  split
  · exact makeBoundary_inRange _ s h
  · exact h

theorem lineSync_inRange (rx : Tab 32 Byte) (s : State) (h : InRange s) : InRange (lineSync rx s) := by
  have htimed (f : Timing → Timing) (hf : (f s.tmn).frames = s.tmn.frames) : InRange (s.modTmn f) :=
    h.stand ⟨rfl, rfl, rfl, rfl, rfl, hf⟩
  unfold lineSync
  dsimp only
  split
  · exact h
  · split
    · exact htimed _ rfl
    · split_ifs
      · exact lock_inRange rx s h
      · exact htimed _ rfl
      · exact htimed _ rfl
    · split
      · exact (makeBoundary_inRange (.line rx) s h).stand ⟨rfl, rfl, rfl, rfl, rfl, rfl⟩
      · exact h

theorem acquisitionTimeout_stands (s : State) : LevelsStand s (acquisitionTimeout s) := by
  unfold acquisitionTimeout
  split <;> simp [LevelsStand]

theorem clockFail_inRange (s : State) (h : InRange s) : InRange (clockFail s) := by
  unfold clockFail
  split
  · exact (makeBoundary_inRange .internal s h).stand (by simp [LevelsStand, postBoth])
  · exact h

end Sys2Proof.Machine
end

section
/-! SUPPORT. The commands, the receiver and the start-up load: what they leave of the levels, the block totals and the link
records; and the two commands that set the Level and Bleed Unit (R106 to R109). -/

namespace Sys2Proof.Machine

/-! ### The commands of the Level and Bleed Unit -/

theorem TotalsLaw.modLev {s : State} (h : TotalsLaw s) (p : Nat) (f : Level → Level)
    (hf : ∀ l, (f l).level = l.level ∧ (f l).energy = l.energy ∧ (f l).adapting = l.adapting) :
    TotalsLaw (s.modLev p f) := by
  obtain ⟨hwords, hframes, hfull, hp⟩ := h
  refine ⟨hwords, hframes, hfull, fun q hq => ?_⟩
  have hq' := hp q hq
  rw [State.modLev_levAt]
  split
  next hpq =>
    obtain ⟨rfl, _⟩ := hpq
    obtain ⟨hlevel, henergy, hadapting⟩ := hf (s.levAt p)
    rw [hlevel, henergy, hadapting]
    exact hq'
  next => exact hq'

/-- The attenuation of position `p` is lowered to a new `A_max` (R107). -/
def lowerAtten (most p : Nat) (s : State) : State := s.modLev p (fun l => { l with atten := min l.atten most })

theorem lowerAtten_levAt (most : Nat) (s : State) (q : Nat) (hq : q < 16) :
    (forPositions (lowerAtten most) s).levAt q = { s.levAt q with atten := min (s.levAt q).atten most } := by
  have hentry := forPositions_entry State.levAt (fun _ => True) (lowerAtten most)
    (fun _ l => { l with atten := min l.atten most }) (fun _ _ _ => trivial)
    (fun p q t hne => by rw [lowerAtten, State.modLev_levAt, if_neg (fun h => hne h.1.symm)])
    (fun p t hp _ => by rw [lowerAtten, State.modLev_levAt, if_pos ⟨rfl, hp⟩]) s trivial q
  rwa [if_pos hq] at hentry

theorem lowerAtten_params (most : Nat) (s : State) : (forPositions (lowerAtten most) s).params = s.params :=
  forPositions_field State.params (lowerAtten most) (fun _ _ => rfl) s

/-- New parameters in range, with every attenuation lowered to the new `A_max`, keep the ranges (R106, R107). -/
theorem setParams_inRange (par : LevelParams) (s : State) (hpar : par.InRange) (h : InRange s) :
    InRange (forPositions (lowerAtten par.attenMost) { s with params := par }) := by
  obtain ⟨hlink, ⟨_, hlevels⟩, htotals⟩ := h
  have hlev (p : Nat) : ({ s with params := par } : State).levAt p = s.levAt p := levAt_congr rfl p
  have htotals' : TotalsLaw { s with params := par } := htotals.of_eq rfl rfl rfl rfl
  have hlink' : LinkLaw { s with params := par } := hlink.of_eq rfl
  generalize hu : ({ s with params := par } : State) = u at *
  have hparams : u.params = par := by rw [← hu]
  have hturn (p : Nat) (t : State) (ht : TotalsLaw t) : TotalsLaw (lowerAtten par.attenMost p t) :=
    ht.modLev p _ fun _ => ⟨rfl, rfl, rfl⟩
  refine ⟨hlink'.of_eq (forPositions_field State.link (lowerAtten par.attenMost) (fun _ _ => rfl) u),
    ⟨?_, fun p hp => ?_⟩,
    forPositions_keeps TotalsLaw (lowerAtten par.attenMost) (fun p t _ => hturn p t) u htotals'⟩
  · rw [lowerAtten_params, hparams]
    exact hpar
  · obtain ⟨hfloor, hrise, hhang, hvoice, _, hrest⟩ := hlevels p hp
    rw [lowerAtten_params, lowerAtten_levAt _ u p hp, hlev, hparams]
    exact ⟨hfloor, hrise, hhang, hvoice, Nat.min_le_right .., hrest⟩

theorem setLevelsCore_inRange (ps : List Byte) (s : State) (h : InRange s) : InRange (setLevelsCore ps s).1 := by
  refine setParams_inRange _ s ⟨clampTo_le .., clampTo_le .., clampTo_le .., ?_, ?_, clampTo_le .., ?_⟩ h
  · dsimp only
    split
    · omega
    next hne => unfold clampTo; split <;> omega
  · dsimp only
    split
    · omega
    · exact clampTo_le ..
  · exact Nat.le_of_lt_succ (field1_lt ps 5)

/-- A body with as many positions as its count says sets a list of at most 4 (R108, R109). -/
theorem setNeighboursCore_inRange (ps : List Byte) (s : State) (hfits : ps.length = 2 + field1 ps 1) (h : InRange s) :
    InRange (setNeighboursCore ps s).1 := by
  unfold setNeighboursCore
  dsimp only
  split
  · exact h
  next hok =>
    simp only [not_or, not_not, Bool.not_eq_true, List.any_eq_false, Bool.or_eq_true, decide_eq_true_eq, beq_iff_eq] at hok
    obtain ⟨_, hcount, hrange, hnodup⟩ := hok
    obtain ⟨hlink, hlevels, htotals⟩ := h
    refine ⟨hlink, hlevels.modLev _ _ ?_, htotals.modLev _ _ fun _ => ⟨rfl, rfl, rfl⟩⟩
    rintro ⟨hfloor, hrise, hhang, hvoice, hatten, hguard, hfall, _⟩
    refine ⟨hfloor, hrise, hhang, hvoice, hatten, hguard, hfall, ?_, hnodup, fun q hq => ?_⟩
    · simp only [neighbourList, List.length_map, List.length_drop]
      omega
    · obtain ⟨hlt, hne⟩ := hrange q hq
      exact ⟨by omega, hne⟩

/-! ### The other commands -/

/-! Calls (chapter 1). -/

theorem connectCore_stands (ps : List Byte) (s : State) : LevelsStand s (connectCore ps s).1 := by
  unfold connectCore
  dsimp only
  repeat' split
  all_goals simp [LevelsStand]

theorem holdCore_stands (ps : List Byte) (s : State) : LevelsStand s (holdCore ps s).1 := by
  unfold holdCore
  dsimp only
  repeat' split
  all_goals simp [LevelsStand]

theorem resumeCore_stands (ps : List Byte) (s : State) : LevelsStand s (resumeCore ps s).1 := by
  unfold resumeCore
  dsimp only
  repeat' split
  all_goals simp [LevelsStand]

theorem releaseCore_stands (ps : List Byte) (s : State) : LevelsStand s (releaseCore ps s).1 := by
  unfold releaseCore
  dsimp only
  repeat' split
  all_goals simp [LevelsStand]

theorem muteCore_stands (ps : List Byte) (s : State) : LevelsStand s (muteCore ps s).1 := by
  unfold muteCore
  dsimp only
  repeat' split
  all_goals simp [LevelsStand]

theorem setCallGainsCore_stands (ps : List Byte) (s : State) : LevelsStand s (setCallGainsCore ps s).1 := by
  unfold setCallGainsCore
  dsimp only
  repeat' split
  all_goals simp [LevelsStand]

theorem setSidetoneCore_stands (ps : List Byte) (s : State) : LevelsStand s (setSidetoneCore ps s).1 := by
  unfold setSidetoneCore
  dsimp only
  repeat' split
  all_goals simp [LevelsStand]

/-! Supervision (chapter 2). -/

theorem monitorCore_stands (ps : List Byte) (s : State) : LevelsStand s (monitorCore ps s).1 := by
  unfold monitorCore
  dsimp only
  repeat' split
  all_goals simp [LevelsStand]

theorem unmonitorCore_stands (ps : List Byte) (s : State) : LevelsStand s (unmonitorCore ps s).1 := by
  unfold unmonitorCore
  dsimp only
  repeat' split
  all_goals simp [LevelsStand]

theorem whisperPromptCore_stands (ps : List Byte) (s : State) : LevelsStand s (whisperPromptCore ps s).1 := by
  unfold whisperPromptCore
  dsimp only
  repeat' split
  all_goals simp [LevelsStand]

theorem clearWhispersCore_stands (ps : List Byte) (s : State) : LevelsStand s (clearWhispersCore ps s).1 := by
  unfold clearWhispersCore
  dsimp only
  repeat' split
  all_goals simp [LevelsStand]

/-! Cancellers (chapter 4). -/

theorem setEcCore_stands (ps : List Byte) (s : State) : LevelsStand s (setEcCore ps s).1 := by
  unfold setEcCore
  dsimp only
  repeat' split
  all_goals simp [LevelsStand]

theorem resetEcCore_stands (ps : List Byte) (s : State) : LevelsStand s (resetEcCore ps s).1 := by
  unfold resetEcCore
  dsimp only
  repeat' split
  all_goals simp [LevelsStand]

/-! Clips and streams (chapter 7). -/

theorem clipLoadCore_stands (ps : List Byte) (s : State) : LevelsStand s (clipLoadCore ps s).1 := by
  unfold clipLoadCore
  dsimp only
  repeat' split
  all_goals simp [LevelsStand]

theorem clipDeleteCore_stands (ps : List Byte) (s : State) : LevelsStand s (clipDeleteCore ps s).1 := by
  unfold clipDeleteCore
  dsimp only
  repeat' split
  all_goals simp [LevelsStand]

theorem setProgrammeCore_stands (ps : List Byte) (s : State) : LevelsStand s (setProgrammeCore ps s).1 := by
  unfold setProgrammeCore
  dsimp only
  repeat' split
  all_goals simp [LevelsStand]

theorem callerPromptCore_stands (ps : List Byte) (s : State) : LevelsStand s (callerPromptCore ps s).1 := by
  unfold callerPromptCore
  dsimp only
  repeat' split
  all_goals simp [LevelsStand]

theorem stopPromptCore_stands (ps : List Byte) (s : State) : LevelsStand s (stopPromptCore ps s).1 := by
  unfold stopPromptCore
  dsimp only
  repeat' split
  all_goals simp [LevelsStand]

/-! The store (chapter 8). -/

theorem storeEraseCore_stands (ps : List Byte) (s : State) : LevelsStand s (storeEraseCore ps s).1 := by
  unfold storeEraseCore
  dsimp only
  repeat' split
  all_goals simp [LevelsStand]

theorem storeWriteCore_stands (ps : List Byte) (s : State) : LevelsStand s (storeWriteCore ps s).1 := by
  unfold storeWriteCore
  dsimp only
  repeat' split
  all_goals simp [LevelsStand]

theorem storeReadCore_stands (ps : List Byte) (s : State) : LevelsStand s (storeReadCore ps s).1 := by
  unfold storeReadCore
  dsimp only
  repeat' split
  all_goals simp [LevelsStand]

/-! Timing, reads and notices (chapters 10 and 11). -/

theorem setGraceCore_stands (ps : List Byte) (s : State) : LevelsStand s (setGraceCore ps s).1 :=
  LevelsStand.trans (t := s.modTmn _) ⟨rfl, rfl, rfl, rfl, rfl, rfl⟩ (graceExpiry_stands _)

theorem forceClockFailCore_stands (ps : List Byte) (s : State) : LevelsStand s (forceClockFailCore ps s).1 := by
  unfold forceClockFailCore
  dsimp only
  split <;> simp [LevelsStand]

theorem saveDirectoryCore_stands (s : State) : LevelsStand s (saveDirectoryCore s).1 := by
  unfold saveDirectoryCore
  split <;> simp [LevelsStand]

theorem ackClockFailCore_stands (s : State) : LevelsStand s (ackClockFailCore s).1 := by
  unfold ackClockFailCore
  split <;> simp [LevelsStand]

theorem readCore_stands (limit : Nat) (record : State → Nat → List Byte) (ps : List Byte) (s : State) :
    LevelsStand s (readCore limit record ps s).1 := by
  unfold readCore
  split <;> exact .refl s

theorem fetchNoticesCore_stands (ps : List Byte) (r : Role) (s : State) :
    LevelsStand s (fetchNoticesCore ps r s).1 := by
  unfold fetchNoticesCore
  dsimp only
  split
  · exact .refl s
  · cases r <;> exact ⟨rfl, rfl, rfl, rfl, rfl, rfl⟩

/-! ### Frames -/

/-- A frame whose body fits its command keeps the ranges where the command does (R188). -/
theorem InRange.takeFrame {st : Station} {code : Byte} {roles : List Role} {fits whileStarting : Bool}
    {core : Role → State → State × Answer} (hcore : fits = true → ∀ r t, InRange t → InRange (core r t).1) (s : State)
    (h : InRange s) : InRange (Machine.takeFrame st code roles fits whileStarting core s) := by
  have hacc : InRange s.accepted := h.stand ⟨rfl, rfl, rfl, rfl, rfl, rfl⟩
  rcases takeFrame_cases st code roles fits whileStarting core s with ⟨r, _, _, hfits, _, heq⟩ | ⟨_, heq⟩
  · rw [heq]
    exact (hcore hfits r _ hacc).stand ⟨rfl, rfl, rfl, rfl, rfl, rfl⟩
  · rw [heq]
    exact hacc.stand ⟨rfl, rfl, rfl, rfl, rfl, rfl⟩

theorem InRange.takeQuiet {st : Station} {code : Byte} {roles : List Role} {fits whileStarting : Bool}
    {core : Role → State → State × Answer} (hcore : ∀ r t, LevelsStand t (core r t).1) (s : State) (h : InRange s) :
    InRange (Machine.takeFrame st code roles fits whileStarting core s) :=
  .takeFrame (fun _ r t ht => ht.stand (hcore r t)) s h

/-- Every command of Table 12-1 keeps the ranges. -/
theorem handlers_inRange :
    ∀ h ∈ handlers, ∀ (st : Station) (ps : List Byte) (s : State), InRange s → InRange (h.take st ps s) := by
  simp only [handlers, List.forall_mem_cons]
  exact
    ⟨fun _ ps => .takeQuiet fun _ => connectCore_stands ps,
     fun _ ps => .takeQuiet fun _ => holdCore_stands ps,
     fun _ ps => .takeQuiet fun _ => resumeCore_stands ps,
     fun _ ps => .takeQuiet fun _ => releaseCore_stands ps,
     fun _ ps => .takeQuiet fun _ => muteCore_stands ps,
     fun _ ps => .takeQuiet fun _ => setCallGainsCore_stands ps,
     fun _ ps => .takeQuiet fun _ => setSidetoneCore_stands ps,
     fun _ ps => .takeQuiet fun _ => monitorCore_stands ps,
     fun _ ps => .takeQuiet fun _ => unmonitorCore_stands ps,
     fun _ ps => .takeQuiet fun _ => whisperPromptCore_stands ps,
     fun _ ps => .takeQuiet fun _ => clearWhispersCore_stands ps,
     fun _ ps => .takeQuiet fun _ => setEcCore_stands ps,
     fun _ ps => .takeQuiet fun _ => resetEcCore_stands ps,
     fun _ ps => .takeFrame fun _ _ => setLevelsCore_inRange ps,
     fun _ ps => .takeFrame fun hfits _ t => setNeighboursCore_inRange ps t (by simp at hfits; exact hfits.2),
     fun _ ps => .takeQuiet fun _ => clipLoadCore_stands ps,
     fun _ ps => .takeQuiet fun _ => clipDeleteCore_stands ps,
     fun _ ps => .takeQuiet fun _ => setProgrammeCore_stands ps,
     fun _ ps => .takeQuiet fun _ => callerPromptCore_stands ps,
     fun _ ps => .takeQuiet fun _ => stopPromptCore_stands ps,
     fun _ ps => .takeQuiet fun _ => storeEraseCore_stands ps,
     fun _ ps => .takeQuiet fun _ => storeWriteCore_stands ps,
     fun _ ps => .takeQuiet fun _ => storeReadCore_stands ps,
     fun _ _ => .takeQuiet fun _ => saveDirectoryCore_stands,
     fun _ ps => .takeQuiet fun _ => setGraceCore_stands ps,
     fun _ ps => .takeQuiet fun _ => forceClockFailCore_stands ps,
     fun _ _ => .takeQuiet fun _ => ackClockFailCore_stands,
     fun _ ps => .takeQuiet fun _ => readCore_stands 16 State.positionRecord ps,
     fun _ ps => .takeQuiet fun _ => readCore_stands 24 State.streamRecord ps,
     fun _ ps => .takeQuiet fun _ => readCore_stands 128 State.clipRecord ps,
     fun _ _ => .takeQuiet fun _ => .refl,
     fun _ _ => .takeQuiet fun _ => .refl,
     fun _ ps => .takeQuiet fun r => fetchNoticesCore_stands ps r,
     by simp⟩

theorem unknownCommand_stands (st : Station) (body : List Byte) (s : State) :
    LevelsStand s (unknownCommand st body s) := by
  have hrefuse (status : Status) : LevelsStand s (refuseFrame st body status s) := ⟨rfl, rfl, rfl, rfl, rfl, rfl⟩
  unfold unknownCommand
  split_ifs
  · exact hrefuse _
  · exact hrefuse _
  · exact .refl s

theorem takeBody_inRange (st : Station) (body : List Byte) (s : State) (h : InRange s) : InRange (takeBody st body s) := by
  unfold takeBody
  split
  · exact h.stand (unknownCommand_stands st [] s)
  · split
    next hd hfound => exact handlers_inRange hd (List.mem_of_find?_eq_some hfound) st _ s h
    next => exact h.stand (unknownCommand_stands st _ s)

/-! ### The receiver -/

theorem InRange.modPort {s : State} (h : InRange s) (f : Port → Port) : InRange (s.modPort f) :=
  h.stand ⟨rfl, rfl, rfl, rfl, rfl, rfl⟩

theorem takeCharacter_inRange (ch : BitVec 12) (s : State) (h : InRange s) : InRange (takeCharacter ch s) := by
  unfold takeCharacter
  dsimp only
  split
  · exact h.modPort _
  · split
    · exact h
    · exact h.modPort _
    · exact h.modPort _
    · unfold takeCheck
      split
      · split
        · exact takeBody_inRange _ _ s h
        · exact h.modPort _
      · exact h.modPort _

theorem characterArrives_inRange (ch : BitVec 12) (low : Nat) (s : State) (h : InRange s) :
    InRange (characterArrives ch low s) := by
  rcases characterArrives_cases ch low s with ⟨_, heq⟩ | ⟨_, _, heq⟩ | ⟨_, _, _, heq⟩ | ⟨_, _, _, heq⟩
  · rw [heq]; exact h.modPort _
  · rw [heq]; exact takeCharacter_inRange ch _ (h.modPort _)
  · rw [heq]; exact (h.modPort _).modPort _
  · rw [heq]; exact h.modPort _

theorem goodCharacter_inRange (ch : BitVec 12) (w : CharacterTime) (s : State) (h : InRange s) :
    InRange (goodCharacter ch w s) := by
  cases w with
  | begins low =>
    show InRange (characterBegins ch low s)
    rcases characterBegins_cases ch low s with ⟨_, _, heq⟩ | ⟨_, heq⟩
    · rw [heq]; exact h.modPort _
    · rw [heq]; exact h
  | ended low =>
    show InRange (characterEnds ch low s)
    rcases characterEnds_cases ch low s with ⟨_, heq⟩ | ⟨_, heq⟩
    · rw [heq]; exact (characterArrives_inRange ch 0 s h).modPort _
    · rw [heq]; exact characterArrives_inRange ch low s h

theorem frameAbandoned_inRange (why : AbandonCause) (s : State) (h : InRange s) : InRange (frameAbandoned why s) := by
  unfold frameAbandoned
  split
  · exact characterArrives_inRange _ 0 s h
  · exact h

theorem receiverIdleTimeout_stands (s : State) : LevelsStand s (receiverIdleTimeout s) := by
  unfold receiverIdleTimeout
  split <;> simp [LevelsStand]

theorem replyStart_stands (s : State) : LevelsStand s (replyStart s) := by
  rcases replyStart_cases s with ⟨_, _, _, _, h⟩ | ⟨_, h⟩ <;> simp [LevelsStand, h]

theorem replyDrop_stands (s : State) : LevelsStand s (replyDrop s) := by
  unfold replyDrop
  repeat' split
  all_goals simp [LevelsStand]

theorem replyCollision_stands (s : State) : LevelsStand s (replyCollision s) := by
  unfold replyCollision
  split <;> simp [LevelsStand]

theorem replyEnd_stands (s : State) : LevelsStand s (replyEnd s) := by
  unfold replyEnd
  split <;> simp [LevelsStand]

/-! ### The start-up load -/

theorem startupStoreReady_stands (s : State) : LevelsStand s (startupStoreReady s) := by
  unfold startupStoreReady
  split <;> simp [LevelsStand]

theorem startupNoStore_stands (s : State) : LevelsStand s (startupNoStore s) := by
  unfold startupNoStore
  split <;> simp [LevelsStand]

theorem takeEntry_stands (dir : List Byte) (acc : State × Nat) (i : Nat) : LevelsStand acc.1 (takeEntry dir acc i).1 := by
  unfold takeEntry
  dsimp only
  repeat' split
  all_goals simp [LevelsStand]

theorem takeEntries_stands (dir : List Byte) (l : List Nat) (acc : State × Nat) :
    LevelsStand acc.1 (l.foldl (takeEntry dir) acc).1 := by
  induction l generalizing acc with
  | nil => exact .refl _
  | cons i l ih => exact (takeEntry_stands dir acc i).trans (ih _)

theorem startupLoadEnd_stands (dir : List Byte) (s : State) : LevelsStand s (startupLoadEnd dir s) := by
  have hends (c : Cause) (n : Nat) (t : State) : LevelsStand t (loadEnds c n t) := by simp [LevelsStand]
  unfold startupLoadEnd
  dsimp only
  split
  · split
    · exact LevelsStand.trans (takeEntries_stands dir _ (s.modStore _, 0)) (hends _ _ _)
    · exact hends _ _ (s.modStore _)
  · exact .refl s

/-! ### Reset -/

theorem reset_inRange (straps : BitVec 5) (s : State) : InRange (deviceReset straps s) :=
  InRange.stand ⟨reset_linkLaw, reset_levelLaw, reset_totalsLaw⟩ ⟨rfl, rfl, rfl, rfl, rfl, rfl⟩

end Sys2Proof.Machine
end

section
/-! SUPPORT. Every row and every step keeps the ranges of the levels, the block totals and the link records, and the
statement. -/

namespace Sys2Proof.Machine

/-- Every row keeps the ranges. -/
theorem exec_inRange (c : Instr) (s t : State) (hs : InRange s) (h : exec c s = .next t) : InRange t := by
  cases hb : frameBody c with
  | some frame =>
    rcases exec_frame c frame.1 frame.2 s hb with hc | hc
    all_goals
      rw [hc] at h
      cases h
    · exact takeBody_inRange _ _ s hs
    · exact hs.stand (unknownCommand_stands ..)
  | none =>
    cases c with
    | deviceReset straps => cases h; exact reset_inRange straps s
    | startupStoreReady => cases h; exact hs.stand (startupStoreReady_stands s)
    | startupNoStore => cases h; exact hs.stand (startupNoStore_stands s)
    | startupLoadEnd dir => cases h; exact hs.stand (startupLoadEnd_stands dir s)
    | frameBoundary => cases h; exact frameBoundary_inRange s hs
    | blockBoundary => cases h; exact blockBoundary_inRange s hs
    | graceTimerExpiry => cases h; exact graceTimerExpiry_inRange s hs
    | lineSync rx => cases h; exact lineSync_inRange rx s hs
    | acquisitionTimeout => cases h; exact hs.stand (acquisitionTimeout_stands s)
    | clockFail => cases h; exact clockFail_inRange s hs
    | headsetWordArrival p w => cases h; exact headsetWordArrival_inRange p w s hs
    | fetchGrant => cases h; exact hs.stand (by simp [LevelsStand])
    | fetchArrival bytes => cases h; exact hs.stand (by simp [LevelsStand])
    | fetchTimeout => cases h; exact hs.stand (by simp [LevelsStand])
    | operationStepStart => cases h; exact hs.stand (by simp [LevelsStand])
    | stepStoreReady => cases h; exact hs.stand (by simp [LevelsStand])
    | eraseDone => cases h; exact hs.stand (by simp [LevelsStand])
    | eraseTimeout => cases h; exact hs.stand (by simp [LevelsStand])
    | suspendTimeout => cases h; exact hs.stand (by simp [LevelsStand])
    | eraseResume => cases h; exact hs.stand (by simp [LevelsStand])
    | programDone => cases h; exact hs.stand (by simp [LevelsStand])
    | programTimeout => cases h; exact hs.stand (by simp [LevelsStand])
    | storeReadServe => cases h; exact hs.stand (by simp [LevelsStand])
    | storeReadComplete bytes => cases h; exact hs.stand (by simp [LevelsStand])
    | storeReadAbandon => cases h; exact hs.stand (by simp [LevelsStand])
    | receiverIdleTimeout => cases h; exact hs.stand (receiverIdleTimeout_stands s)
    | frameAbandoned why => cases h; exact frameAbandoned_inRange why s hs
    | goodCharacter ch w => cases h; exact goodCharacter_inRange ch w s hs
    | linkBreak => cases h; exact hs.modPort _
    | replyStart => cases h; exact hs.stand (replyStart_stands s)
    | replyDrop => cases h; exact hs.stand (replyDrop_stands s)
    | replyCollision => cases h; exact hs.stand (replyCollision_stands s)
    | replyEnd => cases h; exact hs.stand (replyEnd_stands s)
    | resetPinHeld => cases h; exact hs.stand ⟨rfl, rfl, rfl, rfl, rfl, rfl⟩
    | _ => cases hb

end Sys2Proof.Machine

open Sys2Proof.Machine

/-- Settles O57: a word adds the one arrival that its place in the frame grants, a frame at most one to the presence count,
and the end of a block measures the block and restarts its totals. -/
theorem levelsStayInRange : Obligations.LevelsStayInRange :=
  fun s t _ hs hstep => step_kept InRange (fun _ _ h => h.stand ⟨rfl, rfl, rfl, rfl, rfl, rfl⟩)
    (fun c u v hu h => exec_inRange c u v hu h) (fun _ h => h.stand ⟨rfl, rfl, rfl, rfl, rfl, rfl⟩) s t hs hstep

end

section
/-! SUPPORT. Two states that differ in whisper-class sound alone (R52): the readings on which they agree, the trunk-send
samples formed from these, and the bytes that go out. -/

namespace Sys2Proof.Machine

/-! ### What goes out on the highway -/

/-- The step of a mute ramp does not look at the relation (R19). -/
theorem stepRamp_relation (x : Position) (r : Option Relation) : ({ x with relation := r }).stepRamp.ramp = x.stepRamp.ramp := by
  simp only [Position.stepRamp, Position.rampTarget]
  split_ifs <;> rfl

theorem sendByte_congr {s u : State} (hbinding : ∀ p, p < 16 → (u.posAt p).binding = (s.posAt p).binding)
    (hsample : ∀ p, p < 16 → (u.mixAt p).t = (s.mixAt p).t) (ts : Nat) : u.sendByte ts = s.sendByte ts := by
  have hsender : u.senderOf ts = s.senderOf ts := List.find?_congr fun p hp => by rw [hbinding p (by simpa using hp)]
  unfold State.sendByte
  rw [hsender]
  split
  next p hfound => rw [hsample p (by simpa using List.mem_of_find?_eq_some hfound)]
  next => rfl

theorem sendHighway_tx_congr {s u : State} (rx : Option (Tab 32 Byte)) (hheld : u.resetHeld = s.resetHeld)
    (hbyte : ∀ ts, u.sendByte ts = s.sendByte ts) : (sendHighway rx u).hwy.tx = (sendHighway rx s).hwy.tx := by
  simp only [sendHighway, hheld, hbyte]

theorem frameWork_hwy (s : State) : (frameWork s).hwy = (frameOut s).hwy := by
  rw [frameWork_eq, State.setWords_hwy, State.modTmn_hwy]
  exact forSlots_field State.hwy slotFrame (fun _ _ => by simp) _

/-- The state from which a frame goes out on the highway: the samples formed and the headset words sent (R40, R155). -/
def beforeHighway (s : State) : State := forPositions sendHeadset (formAll (forPositions muteStep s))

theorem frameOut_eq (s : State) : frameOut s = sendHighway s.tmn.lineOf (beforeHighway s) := rfl

theorem beforeHighway_field {α : Type} (get : State → α) (h : ∀ p t, get (sendHeadset p t) = get t) (s : State) :
    get (beforeHighway s) = get (formAll (forPositions muteStep s)) := forPositions_field get sendHeadset h _

theorem beforeHighway_resetHeld (s : State) : (beforeHighway s).resetHeld = s.resetHeld := by
  rw [beforeHighway_field State.resetHeld (fun _ _ => by simp)]
  simp [forPositions_field State.resetHeld muteStep (fun _ _ => by simp)]

theorem beforeHighway_binding (s : State) (p : Nat) : ((beforeHighway s).posAt p).binding = (s.posAt p).binding := by
  have hpos : (beforeHighway s).pos = (forPositions muteStep s).pos := by
    rw [beforeHighway_field State.pos (fun _ _ => by simp)]
    simp
  obtain ⟨r, hr⟩ := (ramps_stepped s).posAt_ramp
  rw [posAt_congr hpos, hr]

theorem beforeHighway_mixAt (s : State) (p : Nat) (hp : p < 16) : (beforeHighway s).mixAt p = (frameWork s).mixAt p := by
  rw [mixAt_congr (beforeHighway_field State.mix (fun _ _ => by simp) s), formAll_mixAt, if_pos hp, frameWork_mixAt s p hp]

/-- The bytes of a frame follow from the pin, the kind of frame, the bindings and the trunk-send samples (R169, R196). -/
theorem frameWork_tx_congr {s u : State} (hheld : u.resetHeld = s.resetHeld) (htmn : u.tmn = s.tmn)
    (hbinding : ∀ p, p < 16 → (u.posAt p).binding = (s.posAt p).binding)
    (hsample : ∀ p, p < 16 → ((frameWork u).mixAt p).t = ((frameWork s).mixAt p).t) :
    (frameWork u).hwy.tx = (frameWork s).hwy.tx := by
  rw [frameWork_hwy, frameWork_hwy, frameOut_eq, frameOut_eq, htmn]
  refine sendHighway_tx_congr _ ?_ (sendByte_congr (fun p hp => ?_) fun p hp => ?_)
  · rw [beforeHighway_resetHeld, beforeHighway_resetHeld, hheld]
  · rw [beforeHighway_binding, beforeHighway_binding, hbinding p hp]
  · rw [beforeHighway_mixAt u p hp, beforeHighway_mixAt s p hp, hsample p hp]

/-! ### The readings on which the two states agree -/

section
variable {s u : State} (h : WhisperAlike s u)
include h

/-- The records differ in the live whisper gain of the relation alone. -/
theorem WhisperAlike.posAt {p : Nat} (hp : p < 16) : ∃ r, u.posAt p = { s.posAt p with relation := r } := by
  obtain ⟨_, _, _, hrecords, _⟩ := h
  obtain ⟨hrecord, _⟩ := hrecords p hp
  refine ⟨(u.posAt p).relation, ?_⟩
  calc u.posAt p = { ({ u.posAt p with relation := none } : Position) with relation := (u.posAt p).relation } := rfl
    _ = { ({ s.posAt p with relation := none } : Position) with relation := (u.posAt p).relation } := by rw [hrecord]

theorem WhisperAlike.binding {p : Nat} (hp : p < 16) : (u.posAt p).binding = (s.posAt p).binding := by
  obtain ⟨r, hr⟩ := h.posAt hp
  rw [hr]

theorem WhisperAlike.relation_none {p : Nat} (hp : p < 16) (hr : (s.posAt p).relation = none) :
    (u.posAt p).relation = none := by
  obtain ⟨_, _, _, hrecords, _⟩ := h
  obtain ⟨_, hrelation, _⟩ := hrecords p hp
  rwa [hr, Option.map_none, Option.map_eq_none_iff] at hrelation

theorem WhisperAlike.relation_some {p : Nat} (hp : p < 16) {r : Relation} (hr : (s.posAt p).relation = some r) :
    ∃ g, (u.posAt p).relation = some { r with gain := g } := by
  obtain ⟨_, _, _, hrecords, _⟩ := h
  obtain ⟨_, hrelation, _⟩ := hrecords p hp
  rw [hr, Option.map_some, Option.map_eq_some_iff] at hrelation
  obtain ⟨⟨form, other, mode, gain⟩, hv, heq⟩ := hrelation
  cases heq
  exact ⟨gain, hv⟩

theorem WhisperAlike.slotAt {i : Nat} (hi : i < 24) (hkind : (s.slotAt i).kind ≠ some .whisper) :
    u.slotAt i = s.slotAt i := by
  obtain ⟨_, _, _, _, _, hslots⟩ := h
  obtain ⟨_, _, _, hsame⟩ := hslots i hi
  exact hsame hkind

theorem WhisperAlike.streamOf (k : StreamKind) (p : Nat) : u.streamOf k p = s.streamOf k p := by
  obtain ⟨_, _, _, _, _, hslots⟩ := h
  refine streamOf_congr (fun i _ hi => ?_) k p
  obtain ⟨hstate, hkind, htarget, _⟩ := hslots i hi
  exact ⟨by rw [hstate], hkind, htarget⟩

/-- The slot of a caller stream is the same in both states. -/
theorem WhisperAlike.callerSlot {p i : Nat} (hi : s.streamOf .caller p = some i) : u.slotAt i = s.slotAt i := by
  obtain ⟨_, hlt, _, hkind, _⟩ := streamOf_some s _ _ _ hi
  exact h.slotAt hlt (by simp [hkind])

theorem WhisperAlike.callerTerm (p : Nat) : u.streamTerm .caller p = s.streamTerm .caller p := by
  rw [streamTerm_eq, streamTerm_eq, h.streamOf]
  cases hi : s.streamOf .caller p with
  | none => rfl
  | some i => simp only [h.callerSlot hi]

theorem WhisperAlike.promptPlays (p : Nat) : u.promptPlays p = s.promptPlays p := by
  unfold State.promptPlays
  rw [h.streamOf]
  cases hi : s.streamOf .caller p with
  | none => rfl
  | some i => simp only [h.callerSlot hi]

theorem WhisperAlike.programmeOut (hslot : SlotLaw s) {k : Nat} (hk : k < 4) :
    u.programmeOut (some k) = s.programmeOut (some k) := by
  obtain ⟨hprogrammes, _⟩ := hslot
  obtain ⟨hkind, _⟩ := hprogrammes k hk
  have hsame := h.slotAt (i := k) (by omega) (by simp [hkind])
  obtain ⟨_, _, _, _, hprog, _⟩ := h
  simp only [State.programmeOut, hprog k hk, hsame]

/-- The microphone of a position in a call is no whisper source (R41, R45). -/
theorem WhisperAlike.micInCall (hrelation : RelationLaw s) {p : Nat} (hp : p < 16) (hcall : (s.posAt p).call ≠ .free) :
    (u.mixAt p).processed = (s.mixAt p).processed := by
  obtain ⟨_, _, _, hrecords, _⟩ := h
  obtain ⟨_, _, hmic⟩ := hrecords p hp
  refine hmic fun r hr hform => ?_
  obtain ⟨_, _, _, hfree, _⟩ := hrelation p hp r hr
  exact absurd (hfree.1 hform) hcall

/-- Of the supervisors' microphones the barge term takes that of a supervisor in BARGE alone (R49). -/
theorem WhisperAlike.bargeTerm (hrelation : RelationLaw s) {p : Nat} (hp : p < 16) :
    (if u.monitorMode p = some .barge then u.supervisorMic p else 0) =
      if s.monitorMode p = some .barge then s.supervisorMic p else 0 := by
  rw [bargeTerm_eq, bargeTerm_eq]
  unfold State.monitoredTerm
  cases hr : (s.posAt p).relation with
  | none => rw [h.relation_none hp hr]
  | some r =>
    obtain ⟨g, hg⟩ := h.relation_some hp hr
    rw [hg]
    dsimp only
    split
    · split
      next hbarge =>
        obtain ⟨hother, _, hmirror, _⟩ := hrelation p hp r hr
        obtain ⟨_, _, _, hrecords, _⟩ := h
        obtain ⟨_, _, hmic⟩ := hrecords r.other hother
        refine hmic fun v hv _ => ?_
        rw [hmirror] at hv
        cases hv
        exact hbarge
      next => rfl
    · rfl

/-! ### The trunk-send samples -/

/-- Each term of a trunk-send sample is the same in both states (R49, R50, R52). -/
theorem WhisperAlike.trunkSend (hrelation : RelationLaw s) (hrecord : RecordLaw s) (hslot : SlotLaw s) {p : Nat}
    (hp : p < 16) : (forPositions muteStep u).trunkSend p = (forPositions muteStep s).trunkSend p := by
  have hrampsU := ramps_stepped u
  have hrampsS := ramps_stepped s
  obtain ⟨r, hpos⟩ := h.posAt hp
  have hcallU : (u.posAt p).call = (s.posAt p).call := by rw [hpos]
  cases hcall : (s.posAt p).call with
  | free => rw [hrampsU.trunkSend_free (hcallU.trans hcall), hrampsS.trunkSend_free hcall]
  | connected =>
    have hramp : ((forPositions muteStep u).posAt p).ramp = ((forPositions muteStep s).posAt p).ramp := by
      rw [hrampsU.posAt, hrampsS.posAt, if_pos hp, if_pos hp, hpos]
      exact stepRamp_relation _ r
    have hmic := h.micInCall hrelation hp (by simp [hcall])
    have hgain : (u.posAt p).txGain = (s.posAt p).txGain := by rw [hpos]
    rw [hrampsU.trunkSend_connected (hcallU.trans hcall), hrampsS.trunkSend_connected hcall, hramp, hmic, hgain,
      h.bargeTerm hrelation hp, h.callerTerm]
  | held =>
    obtain ⟨_, hheld, _, hrange⟩ := hrecord p hp
    obtain ⟨k, hk⟩ := Option.isSome_iff_exists.1 (hheld.2 hcall)
    have hholdU : (u.posAt p).hold = some k := by rw [hpos]; exact hk
    rw [hrampsU.trunkSend_held (hcallU.trans hcall), hrampsS.trunkSend_held hcall, hholdU, hk, h.promptPlays,
      h.callerTerm, h.programmeOut hslot (hrange k hk)]

/-- The frame that begins forms the same trunk-send samples from both states (R52). -/
theorem WhisperAlike.frameWork_t (hrelation : RelationLaw s) (hrecord : RecordLaw s) (hslot : SlotLaw s) {p : Nat}
    (hp : p < 16) : ((frameWork u).mixAt p).t = ((frameWork s).mixAt p).t := by
  rw [frameWork_mixAt u p hp, frameWork_mixAt s p hp]
  exact h.trunkSend hrelation hrecord hslot hp

end

end Sys2Proof.Machine

open Sys2Proof.Machine

/-- Settles O21: the two states agree on every reading of a trunk-send sample, and the bytes on the send timeslots follow
from these samples and the bindings. -/
theorem noWhisperReachesATrunk : Obligations.NoWhisperReachesATrunk := by
  intro s u hrelation hrecord hslot halike hwords hframes
  refine ⟨_, _, rfl, rfl, fun hbegins => ?_⟩
  have hbinding (p : Nat) (hp : p < 16) := halike.binding hp
  have hsample (p : Nat) (hp : p < 16) := halike.frameWork_t hrelation hrecord hslot hp
  obtain ⟨htmn, hheld, hwordsU, _⟩ := halike
  have hs := (mayBegin_iff s.tmn).2 hbegins
  rw [frameBoundary_frame hs hwords hframes,
    frameBoundary_frame (s := u) (htmn ▸ hs) (hwordsU ▸ hwords) (htmn ▸ hframes)]
  exact ⟨hsample, frameWork_tx_congr hheld htmn hbinding hsample⟩

end

section
/-! SUPPORT. The Tap Pool (chapter 5): the free segments, and what a grant, a freed tail and the service of a position make of
each segment and each list (R80, R83, R84). -/

namespace Sys2Proof.Machine

theorem ecAt_congr {s t : State} (h : t.ec = s.ec) (p : Nat) : t.ecAt p = s.ecAt p := congrArg (fun e => tget e p) h

theorem segAt_congr {s t : State} (h : t.pool = s.pool) (g : Nat) : t.segAt g = s.segAt g :=
  congrArg (fun q : Pool => tget q.segs g) h

/-! ### The free segments -/

/-- The free segments, the lowest-numbered first (R83). -/
def State.freeSegs (s : State) : List Nat := (List.range 64).filter (fun g => (s.segAt g).owner.isNone)

theorem mem_freeSegs (s : State) (g : Nat) : g ∈ s.freeSegs ↔ g < 64 ∧ (s.segAt g).owner = none := by
  simp [State.freeSegs]

theorem freeSegs_nodup (s : State) : s.freeSegs.Nodup := List.nodup_range.filter _

theorem freeCount_eq (s : State) : s.freeCount = s.freeSegs.length := rfl

theorem freeSeg_eq (s : State) : s.freeSeg = s.freeSegs.head? := List.head?_filter.symm

/-! ### One grant -/

section
variable {p : Nat} (hp : p < 16) (g : Nat) (s : State)

include hp in
theorem grantSeg_segsOf (q : Nat) : (grantSeg p g s).segsOf q = if q = p then s.segsOf p ++ [g] else s.segsOf q := by
  rw [grantSeg, State.modSegs_segsOf]
  simp [hp, eq_comm]

theorem grantSeg_segAt (j : Nat) :
    (grantSeg p g s).segAt j = if j = g ∧ g < 64 then { s.segAt g with owner := some p } else s.segAt j := by
  rw [grantSeg, State.modSegs_segAt, State.modSeg_segAt]
  simp only [eq_comm]

/-- A grant of the lowest free segment leaves the others free (R83). -/
theorem grantSeg_freeSegs {rest : List Nat} (h : s.freeSegs = g :: rest) : (grantSeg p g s).freeSegs = rest := by
  have hnodup := freeSegs_nodup s
  have hfree : (grantSeg p g s).freeSegs = s.freeSegs.filter (fun j => j ≠ g) := by
    rw [State.freeSegs, State.freeSegs, List.filter_filter]
    refine List.filter_congr fun j hj => ?_
    rw [grantSeg_segAt]
    have hj' : j < 64 := by simpa using hj
    by_cases hjg : j = g
    · simp [hjg, hjg ▸ hj']
    · simp [hjg]
  rw [h, List.nodup_cons] at hnodup
  rw [hfree, h, List.filter_cons_of_neg (by simp), List.filter_eq_self]
  exact fun j hj => by simpa using fun hjg : j = g => hnodup.1 (hjg ▸ hj)

end

/-! ### Grants in a row (R83) -/

section
variable {p : Nat} (hp : p < 16) (n : Nat) (s : State)

theorem grantUpTo_cons {g : Nat} {rest : List Nat} (h : s.freeSegs = g :: rest) :
    grantUpTo p (n + 1) s = grantUpTo p n (grantSeg p g s) := by
  rw [grantUpTo, freeSeg_eq, h]
  rfl

theorem grantUpTo_none (h : s.freeSegs = []) : grantUpTo p n s = s := by
  cases n with
  | zero => rfl
  | succ n => rw [grantUpTo, freeSeg_eq, h]; rfl

theorem grantUpTo_short : (grantUpTo p n s).pool.short = s.pool.short := by
  induction n generalizing s with
  | zero => rfl
  | succ n ih =>
    cases hfree : s.freeSegs with
    | nil => rw [grantUpTo_none _ _ hfree]
    | cons g rest => rw [grantUpTo_cons _ _ hfree, ih]; rfl

theorem grantUpTo_freeSegs : (grantUpTo p n s).freeSegs = s.freeSegs.drop n := by
  induction n generalizing s with
  | zero => rfl
  | succ n ih =>
    cases hfree : s.freeSegs with
    | nil => rw [grantUpTo_none _ _ hfree, hfree]; rfl
    | cons g rest => rw [grantUpTo_cons _ _ hfree, ih, grantSeg_freeSegs g s hfree]; rfl

include hp in
theorem grantUpTo_segsOf (q : Nat) :
    (grantUpTo p n s).segsOf q = if q = p then s.segsOf p ++ s.freeSegs.take n else s.segsOf q := by
  induction n generalizing s with
  | zero => simp only [grantUpTo, List.take_zero, List.append_nil]; split_ifs with h <;> simp [h]
  | succ n ih =>
    cases hfree : s.freeSegs with
    | nil => rw [grantUpTo_none _ _ hfree]; split_ifs with h <;> simp [h]
    | cons g rest =>
      rw [grantUpTo_cons _ _ hfree, ih, grantSeg_freeSegs g s hfree, grantSeg_segsOf hp, grantSeg_segsOf hp]
      by_cases hq : q = p <;> simp [hq]

theorem grantUpTo_segAt (j : Nat) :
    (grantUpTo p n s).segAt j =
      if j ∈ s.freeSegs.take n then { s.segAt j with owner := some p } else s.segAt j := by
  induction n generalizing s with
  | zero => simp [grantUpTo]
  | succ n ih =>
    cases hfree : s.freeSegs with
    | nil => simp [grantUpTo_none _ _ hfree]
    | cons g rest =>
      have hg : g < 64 := ((mem_freeSegs s g).1 (by simp [hfree])).1
      rw [grantUpTo_cons _ _ hfree, ih, grantSeg_freeSegs g s hfree, grantSeg_segAt, List.take_succ_cons]
      by_cases hjg : j = g
      · simp [hjg, hg]
      · simp [hjg]

end

/-! ### Freed tails (R84) -/

section
variable {p : Nat} (hp : p < 16)
include hp

/-- One segment leaves the tail of a list, and holds zeros from then. -/
theorem freeTail_concat (n : Nat) (s : State) (l : List Nat) (g : Nat) (h : s.segsOf p = l ++ [g]) :
    ∃ u, freeTail p (n + 1) s = freeTail p n u ∧ u.segsOf p = l ∧ (∀ q, q ≠ p → u.segsOf q = s.segsOf q) ∧
      (∀ j, j < 64 → u.segAt j = if j = g then Segment.free else s.segAt j) ∧ u.pool.short = s.pool.short := by
  refine ⟨freeSegment g (s.modSegs p List.dropLast), ?_, ?_, fun q hq => ?_, fun j hj => ?_, rfl⟩
  · rw [freeTail, h, List.getLast?_concat]
  · rw [freeSegment, State.modSeg_segsOf, State.modSegs_segsOf, if_pos ⟨rfl, hp⟩, h, List.dropLast_concat]
  · rw [freeSegment, State.modSeg_segsOf, State.modSegs_segsOf, if_neg (fun h => hq h.1.symm)]
  · rw [freeSegment, State.modSeg_segAt, State.modSegs_segAt]
    by_cases hjg : j = g
    · simp [hjg, hjg ▸ hj]
    · simp [hjg, Ne.symm hjg]

/-- What a freed tail makes of the lists and the segments. -/
theorem freeTail_spec (n : Nat) (s : State) :
    (freeTail p n s).segsOf p = (s.segsOf p).take ((s.segsOf p).length - n) ∧
      (∀ q, q ≠ p → (freeTail p n s).segsOf q = s.segsOf q) ∧
      (∀ j, j < 64 → (freeTail p n s).segAt j =
        if j ∈ (s.segsOf p).drop ((s.segsOf p).length - n) then Segment.free else s.segAt j) ∧
      (freeTail p n s).pool.short = s.pool.short := by
  induction n generalizing s with
  | zero => simp [freeTail]
  | succ n ih =>
    rcases List.eq_nil_or_concat (s.segsOf p) with hnil | ⟨l, g, hlist⟩
    · have hsame : freeTail p (n + 1) s = s := by rw [freeTail, hnil]; rfl
      simp [hsame, hnil]
    · rw [List.concat_eq_append] at hlist
      obtain ⟨u, heq, hown, hother, hseg, hshort⟩ := freeTail_concat hp n s l g hlist
      obtain ⟨hown', hother', hseg', hshort'⟩ := ih u
      have hlen : (l ++ [g]).length - (n + 1) = l.length - n := by simp
      rw [heq, hlist, hlen]
      refine ⟨?_, fun q hq => (hother' q hq).trans (hother q hq), fun j hj => ?_, hshort'.trans hshort⟩
      · rw [hown', hown, List.take_append_of_le_length (by omega)]
      · rw [hseg' j hj, hseg j hj, hown, List.drop_append_of_le_length (by omega)]
        by_cases hjg : j = g
        · simp [hjg]
        · simp [hjg]

end

end Sys2Proof.Machine
end

section
/-! SUPPORT. The laws of the Tap Pool and of the cancellers (R58 to R82), entry by entry, and how the pool's operations keep
them. -/

namespace Sys2Proof.Machine

/-! ### Entry by entry -/

/-- What `ShortfallLaw` says of position `p` (R81, R82). -/
def State.RightlyShort (s : State) (p : Nat) : Prop :=
  (p ∈ s.pool.short ↔ (s.linkAt p).state = .up ∧ s.granted p < (s.ecAt p).request) ∧
    s.granted p ≤ (s.ecAt p).request ∧ (s.ecAt p).request ≤ 8 ∧ ((s.linkAt p).state ≠ .up → s.segsOf p = [])

/-- The shortfall list without what it says of the free segments (R82): the pool's operations may pass through states with
both. -/
def ShortListed (s : State) : Prop := s.pool.short.Nodup ∧ ∀ p, p < 16 → s.RightlyShort p

theorem shortfallLaw_iff (s : State) :
    ShortfallLaw s ↔ ShortListed s ∧ (s.pool.short ≠ [] → s.freeSegs = []) := by
  simp only [ShortfallLaw, ShortListed, State.RightlyShort, freeCount_eq, List.length_eq_zero_iff]
  tauto

/-- A canceller within Table 4-1: what `CancellerLaw` says of each. -/
def Canceller.InRange (c : Canceller) : Prop :=
  c.history.length = 256 ∧ (∀ x ∈ c.history, Fits16 x) ∧ Fits16 c.gone ∧ c.hangover ≤ 240 ∧ 1 ≤ c.step ∧ c.step ≤ 32 ∧
    c.shift ≤ 4 ∧ c.request ≤ 8 ∧ c.window ≤ 256

/-- A segment of 32 coefficients of 32 bits: what `CancellerLaw` says of each. -/
def Segment.InRange (x : Segment) : Prop :=
  x.coeffs.length = 32 ∧ ∀ a ∈ x.coeffs, -2147483648 ≤ a ∧ a ≤ 2147483647

theorem cancellerLaw_iff (s : State) :
    CancellerLaw s ↔ (∀ p, p < 16 → (s.ecAt p).InRange) ∧ (∀ g, g < 64 → (s.segAt g).InRange) := Iff.rfl

theorem CancellerLaw.request_le {s : State} (h : CancellerLaw s) {p : Nat} (hp : p < 16) : (s.ecAt p).request ≤ 8 := by
  obtain ⟨hec, _⟩ := h
  obtain ⟨_, _, _, _, _, _, _, hrequest, _⟩ := hec p hp
  exact hrequest

theorem free_inRange : Segment.free.InRange := by simp [Segment.InRange, Segment.free, Config.segmentTaps]

/-- The laws of the pool, but for what the shortfall list says of the free segments. -/
def PoolInOrder (s : State) : Prop := PoolLaw s ∧ ShortListed s ∧ CancellerLaw s

/-- The laws that every step keeps of the pool and the cancellers. -/
def EchoSound (s : State) : Prop := PoolLaw s ∧ ShortfallLaw s ∧ CancellerLaw s

theorem echoSound_iff (s : State) : EchoSound s ↔ PoolInOrder s ∧ (s.pool.short ≠ [] → s.freeSegs = []) := by
  simp only [EchoSound, PoolInOrder, shortfallLaw_iff]
  tauto

/-! ### What the laws look at -/

/-- The readings of the headset links and of the cancellers' requests that the pool turns on. -/
def DemandStands (s t : State) : Prop :=
  ∀ p, p < 16 → ((t.linkAt p).state = .up ↔ (s.linkAt p).state = .up) ∧ (t.ecAt p).request = (s.ecAt p).request

theorem DemandStands.of_eq {s t : State} (hlink : t.link = s.link) (hec : t.ec = s.ec) : DemandStands s t := fun p _ => by
  rw [linkAt_congr hlink, ecAt_congr hec]; simp

/-- The lists stand, and each segment stays with its owner. -/
def OwnersStand (s t : State) : Prop :=
  t.pool.lists = s.pool.lists ∧ t.pool.short = s.pool.short ∧ ∀ g, g < 64 → (t.segAt g).owner = (s.segAt g).owner

theorem OwnersStand.of_pool {s t : State} (h : t.pool = s.pool) : OwnersStand s t :=
  ⟨by rw [h], by rw [h], fun g _ => by rw [segAt_congr h]⟩

theorem OwnersStand.segsOf {s t : State} (h : OwnersStand s t) (p : Nat) : t.segsOf p = s.segsOf p :=
  congrArg (fun l => tget l p) h.1

theorem OwnersStand.freeSegs {s t : State} (h : OwnersStand s t) : t.freeSegs = s.freeSegs :=
  List.filter_congr fun g hg => by rw [h.2.2 g (by simpa using hg)]

/-- Segments that stay with their owners may change their coefficients while they have one. -/
theorem PoolLaw.of_owners {s t : State} (h : PoolLaw s) (howners : OwnersStand s t)
    (hfree : ∀ g, g < 64 → (s.segAt g).owner = none → (t.segAt g).coeffs = (s.segAt g).coeffs) : PoolLaw t := by
  obtain ⟨hlists, hsegs, hshort⟩ := h
  obtain ⟨_, hshort', howner⟩ := id howners
  refine ⟨fun p hp => ?_, fun g hg => ?_, hshort' ▸ hshort⟩
  · rw [howners.segsOf]
    exact hlists p hp
  · obtain ⟨hown, hzero⟩ := hsegs g hg
    rw [howner g hg]
    exact ⟨fun p => by rw [howners.segsOf]; exact hown p, fun hnone => (hfree g hg hnone).trans (hzero hnone)⟩

theorem PoolLaw.of_eq {s t : State} (h : PoolLaw s) (hpool : t.pool = s.pool) : PoolLaw t :=
  h.of_owners (.of_pool hpool) fun g _ _ => by rw [segAt_congr hpool]

theorem State.RightlyShort.of_demand {s t : State} {p : Nat} (h : s.RightlyShort p)
    (hlink : (t.linkAt p).state = .up ↔ (s.linkAt p).state = .up) (hrequest : (t.ecAt p).request = (s.ecAt p).request)
    (hsegs : t.segsOf p = s.segsOf p) (hshort : p ∈ t.pool.short ↔ p ∈ s.pool.short) : t.RightlyShort p := by
  simpa only [State.RightlyShort, State.granted, hlink, hrequest, hsegs, hshort, ne_eq] using h

/-- While its link is UP, a position is on the shortfall list exactly with fewer segments than its request. -/
theorem State.RightlyShort.of_up {s : State} {p : Nat} (hup : (s.linkAt p).state = .up)
    (hshort : p ∈ s.pool.short ↔ s.granted p < (s.ecAt p).request) (hle : s.granted p ≤ (s.ecAt p).request)
    (hmost : (s.ecAt p).request ≤ 8) : s.RightlyShort p :=
  ⟨by rw [hshort, hup]; simp, hle, hmost, fun hne => absurd hup hne⟩

theorem ShortListed.of_demand {s t : State} (h : ShortListed s) (howners : OwnersStand s t) (hdemand : DemandStands s t) :
    ShortListed t := by
  obtain ⟨hnodup, hentries⟩ := h
  obtain ⟨_, hshort, _⟩ := id howners
  refine ⟨hshort ▸ hnodup, fun p hp => ?_⟩
  obtain ⟨hlink, hrequest⟩ := hdemand p hp
  exact (hentries p hp).of_demand hlink hrequest (howners.segsOf p) (by rw [hshort])

theorem ShortfallLaw.of_demand {s t : State} (h : ShortfallLaw s) (howners : OwnersStand s t)
    (hdemand : DemandStands s t) : ShortfallLaw t := by
  rw [shortfallLaw_iff] at h ⊢
  obtain ⟨hlisted, hfree⟩ := h
  exact ⟨hlisted.of_demand howners hdemand, by rwa [howners.2.1, howners.freeSegs]⟩

theorem CancellerLaw.of_eq {s t : State} (h : CancellerLaw s) (hsegs : t.pool.segs = s.pool.segs) (hec : t.ec = s.ec) :
    CancellerLaw t := by
  have hseg (g : Nat) : t.segAt g = s.segAt g := congrArg (fun l => tget l g) hsegs
  simpa only [cancellerLaw_iff, hseg, ecAt_congr hec] using h

/-! ### A grant -/

theorem PoolLaw.grant {s : State} {p g : Nat} (h : PoolLaw s) (hp : p < 16) (hg : g ∈ s.freeSegs) :
    PoolLaw (grantSeg p g s) := by
  obtain ⟨hlists, hsegs, hshort⟩ := h
  obtain ⟨hlt, hfree⟩ := (mem_freeSegs s g).1 hg
  obtain ⟨howner, _⟩ := hsegs g hlt
  have hnew (q : Nat) (hq : q < 16) : g ∉ s.segsOf q := fun hmem => by
    have := (howner q).2 ⟨hq, hmem⟩
    rw [hfree] at this
    cases this
  refine ⟨fun q hq => ?_, fun j hj => ?_, hshort⟩
  · obtain ⟨hnodup, hrange⟩ := hlists q hq
    rw [grantSeg_segsOf hp]
    split
    next hqp =>
      subst hqp
      refine ⟨List.nodup_append'.2 ⟨hnodup, List.nodup_singleton g, by simpa using hnew q hq⟩, fun k hk => ?_⟩
      rcases List.mem_append.1 hk with hk | hk
      · exact hrange k hk
      · exact (List.mem_singleton.1 hk) ▸ hlt
    next => exact ⟨hnodup, hrange⟩
  · obtain ⟨howner', hzero⟩ := hsegs j hj
    simp only [grantSeg_segAt, grantSeg_segsOf hp]
    by_cases hjg : j = g
    · subst hjg
      simp only [hlt, and_self, if_true]
      refine ⟨fun q => ?_, nofun⟩
      by_cases hqp : q = p
      · simp [hqp, hp]
      · have := hnew q
        simp only [hqp, if_false, Option.some.injEq, Ne.symm hqp, false_iff, not_and]
        exact this
    · simp only [hjg, false_and, if_false]
      refine ⟨fun q => ?_, hzero⟩
      rw [howner' q]
      by_cases hqp : q = p
      · simp [hqp, hjg]
      · simp [hqp]

theorem CancellerLaw.grant {s : State} (h : CancellerLaw s) (p g : Nat) : CancellerLaw (grantSeg p g s) := by
  obtain ⟨hec, hseg⟩ := h
  refine ⟨hec, fun j hj => ?_⟩
  rw [grantSeg_segAt]
  split
  next hjg => exact hseg g hjg.2
  next => exact hseg j hj

theorem PoolLaw.grantUpTo {p : Nat} (hp : p < 16) (n : Nat) {s : State} (h : PoolLaw s) : PoolLaw (grantUpTo p n s) := by
  induction n generalizing s with
  | zero => exact h
  | succ n ih =>
    cases hfree : s.freeSegs with
    | nil => rwa [grantUpTo_none _ _ hfree]
    | cons g rest =>
      rw [grantUpTo_cons _ _ hfree]
      exact ih (h.grant hp (by simp [hfree]))

theorem CancellerLaw.grantUpTo (p n : Nat) {s : State} (h : CancellerLaw s) : CancellerLaw (grantUpTo p n s) := by
  obtain ⟨hec, hseg⟩ := h
  refine ⟨fun q hq => ?_, fun j hj => ?_⟩
  · rw [ecAt_congr (s := s) (by simp)]
    exact hec q hq
  · rw [grantUpTo_segAt]
    split <;> exact hseg j hj

/-! ### A freed tail -/

theorem PoolLaw.freeTail {p : Nat} (hp : p < 16) (n : Nat) {s : State} (h : PoolLaw s) : PoolLaw (freeTail p n s) := by
  obtain ⟨hlists, hsegs, hshort⟩ := h
  obtain ⟨hown, hother, hseg, hshort'⟩ := freeTail_spec hp n s
  obtain ⟨hnodup, hrange⟩ := hlists p hp
  generalize (s.segsOf p).length - n = m at hown hseg
  rw [← List.take_append_drop m (s.segsOf p), List.nodup_append'] at hnodup
  obtain ⟨hkept, _, hdisjoint⟩ := hnodup
  have hmem (j : Nat) : j ∈ s.segsOf p ↔ j ∈ (s.segsOf p).take m ∨ j ∈ (s.segsOf p).drop m := by
    rw [← List.mem_append, List.take_append_drop]
  refine ⟨fun q hq => ?_, fun j hj => ?_, hshort' ▸ hshort⟩
  · by_cases hqp : q = p
    · subst hqp
      rw [hown]
      exact ⟨hkept, fun k hk => hrange k (List.mem_of_mem_take hk)⟩
    · rw [hother q hqp]
      exact hlists q hq
  · obtain ⟨howner, hzero⟩ := hsegs j hj
    rw [hseg j hj]
    split
    next hfreed =>
      have howned : (s.segAt j).owner = some p := (howner p).2 ⟨hp, (hmem j).2 (.inr hfreed)⟩
      refine ⟨fun q => ⟨nofun, fun ⟨hq, hin⟩ => ?_⟩, fun _ => rfl⟩
      by_cases hqp : q = p
      · subst hqp
        rw [hown] at hin
        exact absurd hfreed (hdisjoint hin)
      · rw [hother q hqp] at hin
        have := (howner q).2 ⟨hq, hin⟩
        rw [howned, Option.some.injEq] at this
        exact absurd this.symm hqp
    next hkept' =>
      refine ⟨fun q => (howner q).trans ?_, hzero⟩
      by_cases hqp : q = p
      · subst hqp
        rw [hown, hmem]
        simp [hkept']
      · rw [hother q hqp]

theorem CancellerLaw.freeTail {p : Nat} (hp : p < 16) (n : Nat) {s : State} (h : CancellerLaw s) :
    CancellerLaw (freeTail p n s) := by
  obtain ⟨hec, hsegs⟩ := h
  obtain ⟨_, _, hseg, _⟩ := freeTail_spec hp n s
  refine ⟨fun q hq => ?_, fun j hj => ?_⟩
  · rw [ecAt_congr (s := s) (by simp)]
    exact hec q hq
  · rw [hseg j hj]
    split
    · exact free_inRange
    · exact hsegs j hj

/-! ### The shortfall list -/

theorem PoolLaw.setShort {s : State} (h : PoolLaw s) (l : List Nat) (hl : ∀ p ∈ l, p < 16) : PoolLaw (s.setShort l) := by
  obtain ⟨hlists, hsegs, _⟩ := h
  exact ⟨hlists, hsegs, hl⟩

theorem PoolLaw.eraseShort {s : State} (h : PoolLaw s) (p : Nat) : PoolLaw (s.setShort (s.pool.short.erase p)) :=
  h.setShort _ fun q hq => by
    obtain ⟨_, _, hshort⟩ := h
    exact hshort q (List.mem_of_mem_erase hq)

/-- The position at the head of the shortfall list is given the segment `g`, and leaves the list with TAP_GRANTED once it
has its request (R88). -/
def serveHead (p g : Nat) (rest : List Nat) (s : State) : State :=
  if (s.ecAt p).request ≤ (grantSeg p g s).granted p then
    ((grantSeg p g s).setShort rest).post .maint .tapGranted (some p) none none (some ((grantSeg p g s).granted p))
  else grantSeg p g s

theorem serveShortfall_cons (n : Nat) (s : State) {p g : Nat} {rest frees : List Nat} (hshort : s.pool.short = p :: rest)
    (hfree : s.freeSegs = g :: frees) : serveShortfall (n + 1) s = serveShortfall n (serveHead p g rest s) := by
  rw [serveShortfall, hshort, freeSeg_eq, hfree, serveHead]
  have hec : (grantSeg p g s).ecAt p = s.ecAt p := ecAt_congr (by simp) p
  simp only [List.head?_cons, hec]
  split <;> rfl

theorem serveShortfall_stop (n : Nat) (s : State) (h : s.pool.short = [] ∨ s.freeSegs = []) : serveShortfall n s = s := by
  cases n with
  | zero => rfl
  | succ n =>
    rw [serveShortfall, freeSeg_eq]
    rcases h with h | h
    · rw [h]
    · rw [h]; cases s.pool.short <;> rfl

theorem serveHead_freeSegs {p g : Nat} {rest frees : List Nat} {s : State} (hfree : s.freeSegs = g :: frees) :
    (serveHead p g rest s).freeSegs = frees := by
  rw [← grantSeg_freeSegs (p := p) g s hfree]
  unfold serveHead
  split
  · exact (OwnersStand.of_pool (State.post_pool ..)).freeSegs.trans rfl
  · rfl

/-- One turn of the service keeps the pool in order: the head is granted no more than its request (R82, R88). -/
theorem PoolInOrder.serveHead {p g : Nat} {rest frees : List Nat} {s : State} (h : PoolInOrder s)
    (hshort : s.pool.short = p :: rest) (hfree : s.freeSegs = g :: frees) : PoolInOrder (serveHead p g rest s) := by
  obtain ⟨hpool, ⟨hnodup, hentries⟩, hcancel⟩ := h
  obtain ⟨_, _, hrange⟩ := id hpool
  have hp : p < 16 := hrange p (by simp [hshort])
  obtain ⟨hiff, hle, hmost, hdown⟩ := hentries p hp
  obtain ⟨hup, hless⟩ := hiff.1 (by simp [hshort])
  have hpool' := hpool.grant hp (g := g) (by simp [hfree])
  have hec (q : Nat) : (grantSeg p g s).ecAt q = s.ecAt q := ecAt_congr (by simp) q
  have hlink (q : Nat) : (grantSeg p g s).linkAt q = s.linkAt q := linkAt_congr (by simp) q
  have hgranted : (grantSeg p g s).granted p = s.granted p + 1 := by
    simp [State.granted, grantSeg_segsOf hp]
  have hother (q : Nat) (hqp : q ≠ p) : (grantSeg p g s).segsOf q = s.segsOf q := by
    rw [grantSeg_segsOf hp, if_neg hqp]
  rw [hshort, List.nodup_cons] at hnodup
  obtain ⟨hout, hnodup⟩ := hnodup
  unfold Machine.serveHead
  split
  next hfull =>
    have hpool'' := hpool'.setShort rest fun q hq => hrange q (by simp [hshort, hq])
    refine ⟨hpool''.of_eq (State.post_pool ..), ?_,
      CancellerLaw.of_eq (s := (grantSeg p g s).setShort rest) ((hcancel.grant p g).of_eq rfl rfl)
        (congrArg Pool.segs (State.post_pool ..)) (State.post_ec ..)⟩
    refine ShortListed.of_demand (s := (grantSeg p g s).setShort rest) ⟨hnodup, fun q hq => ?_⟩
      (.of_pool (State.post_pool ..)) (.of_eq (State.post_link ..) (State.post_ec ..))
    by_cases hqp : q = p
    · subst hqp
      have hgranted' : ((grantSeg q g s).setShort rest).granted q = s.granted q + 1 := hgranted
      have hec' : ((grantSeg q g s).setShort rest).ecAt q = s.ecAt q := hec q
      refine .of_up ((congrArg Link.state (hlink q)).trans hup) (iff_of_false hout ?_) ?_ ?_
      all_goals (rw [hec']; omega)
    · exact (hentries q hq).of_demand (by rw [State.setShort_linkAt, hlink])
        (by rw [State.setShort_ecAt, hec]) (hother q hqp) (by simp [hshort, hqp])
  next hmore =>
    refine ⟨hpool', ⟨by simp [grantSeg, hshort, hout, hnodup], fun q hq => ?_⟩, hcancel.grant p g⟩
    by_cases hqp : q = p
    · subst hqp
      refine .of_up ((congrArg Link.state (hlink q)).trans hup) (iff_of_true (by simp [grantSeg, hshort]) ?_) ?_ ?_
      all_goals (rw [hec]; omega)
    · exact (hentries q hq).of_demand (by rw [hlink]) (by rw [hec]) (hother q hqp) Iff.rfl

/-- The service of the shortfall list ends with no position waiting or no segment free (R82, R88). -/
theorem PoolInOrder.serveShortfall {n : Nat} {s : State} (h : PoolInOrder s) (hn : s.freeSegs.length ≤ n) :
    EchoSound (serveShortfall n s) := by
  induction n generalizing s with
  | zero =>
    rw [echoSound_iff]
    exact ⟨h, fun _ => List.eq_nil_of_length_eq_zero (Nat.le_zero.1 hn)⟩
  | succ n ih =>
    cases hshort : s.pool.short with
    | nil =>
      rw [serveShortfall_stop _ _ (.inl hshort), echoSound_iff]
      exact ⟨h, fun hne => absurd hshort hne⟩
    | cons p rest =>
      cases hfree : s.freeSegs with
      | nil =>
        rw [serveShortfall_stop _ _ (.inr hfree), echoSound_iff]
        exact ⟨h, fun _ => hfree⟩
      | cons g frees =>
        rw [serveShortfall_cons n s hshort hfree]
        refine ih (h.serveHead hshort hfree) ?_
        rw [serveHead_freeSegs hfree]
        simpa [hfree] using hn

theorem PoolInOrder.serveShort {s : State} (h : PoolInOrder s) : EchoSound (serveShort s) :=
  h.serveShortfall ((List.length_filter_le _ _).trans (by simp))

end Sys2Proof.Machine
end

section
/-! SUPPORT. A changed request and a changed headset link keep the laws of the pool (R81 to R88). -/

namespace Sys2Proof.Machine

/-- The laws of the pool, but for what position `p` is due: they stand after a change of its link or its request. -/
def SoundBut (p : Nat) (s : State) : Prop :=
  PoolLaw s ∧ CancellerLaw s ∧ s.pool.short.Nodup ∧ (s.pool.short ≠ [] → s.freeSegs = []) ∧
    ∀ q, q < 16 → q ≠ p → s.RightlyShort q

/-- A change of `p` that leaves the pool and the other positions leaves the laws, but for what `p` is due. -/
theorem EchoSound.soundBut {s t : State} (h : EchoSound s) (p : Nat) (howners : OwnersStand s t)
    (hfree : ∀ g, g < 64 → (s.segAt g).owner = none → (t.segAt g).coeffs = (s.segAt g).coeffs) (hcancel : CancellerLaw t)
    (hlink : ∀ q, q ≠ p → t.linkAt q = s.linkAt q) (hec : ∀ q, q ≠ p → t.ecAt q = s.ecAt q) : SoundBut p t := by
  obtain ⟨hpool, hlaw, _⟩ := h
  rw [shortfallLaw_iff] at hlaw
  obtain ⟨⟨hnodup, hentries⟩, hnone⟩ := hlaw
  obtain ⟨_, hshort, _⟩ := id howners
  refine ⟨hpool.of_owners howners hfree, hcancel, hshort ▸ hnodup, by rwa [hshort, howners.freeSegs], fun q hq hqp => ?_⟩
  exact (hentries q hq).of_demand (by rw [hlink q hqp]) (by rw [hec q hqp]) (howners.segsOf q) (by rw [hshort])

theorem EchoSound.of_pool {s t : State} (h : EchoSound s) (hpool : t.pool = s.pool) (hcancel : CancellerLaw t)
    (hdemand : DemandStands s t) : EchoSound t := by
  obtain ⟨hpoolLaw, hshort, _⟩ := h
  exact ⟨hpoolLaw.of_eq hpool, hshort.of_demand (.of_pool hpool) hdemand, hcancel⟩

theorem EchoSound.of_eq {s t : State} (h : EchoSound s) (hpool : t.pool = s.pool) (hec : t.ec = s.ec)
    (hup : ∀ p, p < 16 → ((t.linkAt p).state = .up ↔ (s.linkAt p).state = .up)) : EchoSound t := by
  have hcancel : CancellerLaw s := h.2.2
  exact h.of_pool hpool (hcancel.of_eq (by rw [hpool]) hec) fun p hp => ⟨hup p hp, by rw [ecAt_congr hec]⟩

/-! ### A position that is to be given more -/

/-- The segments that the service of `p` grants it: the lowest free ones, up to its request (R83). -/
def State.grants (s : State) (p : Nat) : List Nat := s.freeSegs.take ((s.ecAt p).request - s.granted p)

section
variable {p : Nat} (hp : p < 16) (s : State)

/-- The service makes the grants, and then the shortfall list follows what is still missing (R83, R86). -/
theorem servePosition_pool :
    (servePosition p s).pool.lists = (grantUpTo p ((s.ecAt p).request - s.granted p) s).pool.lists ∧
      (servePosition p s).pool.segs = (grantUpTo p ((s.ecAt p).request - s.granted p) s).pool.segs ∧
      (servePosition p s).pool.short =
        if (grantUpTo p ((s.ecAt p).request - s.granted p) s).granted p < (s.ecAt p).request then
          (if p ∈ s.pool.short then s.pool.short else s.pool.short ++ [p])
        else s.pool.short.erase p := by
  have hec : (grantUpTo p ((s.ecAt p).request - s.granted p) s).ecAt p = s.ecAt p := ecAt_congr (by simp) p
  have hshort := grantUpTo_short (p := p) ((s.ecAt p).request - s.granted p) s
  unfold servePosition
  dsimp only
  rw [hec, hshort]
  generalize grantUpTo p ((s.ecAt p).request - s.granted p) s = u at *
  have hpost (v : State) : (postShortfall p v).pool = v.pool := by simp
  split
  · rw [hpost]
    split
    · exact ⟨rfl, rfl, hshort⟩
    · exact ⟨rfl, rfl, rfl⟩
  · exact ⟨rfl, rfl, rfl⟩

theorem servePosition_segAt (g : Nat) : (servePosition p s).segAt g =
    if g ∈ s.grants p then { s.segAt g with owner := some p } else s.segAt g := by
  obtain ⟨_, hsegs, _⟩ := servePosition_pool (p := p) s
  rw [State.grants, ← grantUpTo_segAt]
  exact congrArg (fun l => tget l g) hsegs

theorem servePosition_freeSegs :
    (servePosition p s).freeSegs = s.freeSegs.drop ((s.ecAt p).request - s.granted p) := by
  obtain ⟨_, hsegs, _⟩ := servePosition_pool (p := p) s
  rw [← grantUpTo_freeSegs (p := p)]
  refine List.filter_congr fun g _ => ?_
  rw [show (servePosition p s).segAt g = _ from congrArg (fun l => tget l g) hsegs]
  rfl

include hp

theorem servePosition_segsOf (q : Nat) :
    (servePosition p s).segsOf q = if q = p then s.segsOf p ++ s.grants p else s.segsOf q := by
  obtain ⟨hlists, _⟩ := servePosition_pool (p := p) s
  rw [State.grants, ← grantUpTo_segsOf hp]
  exact congrArg (fun l => tget l q) hlists

theorem servePosition_granted : (servePosition p s).granted p = s.granted p + (s.grants p).length := by
  rw [State.granted, servePosition_segsOf hp, if_pos rfl, List.length_append]
  rfl

theorem servePosition_short : (servePosition p s).pool.short =
    if s.granted p + (s.grants p).length < (s.ecAt p).request then
      (if p ∈ s.pool.short then s.pool.short else s.pool.short ++ [p])
    else s.pool.short.erase p := by
  obtain ⟨_, _, hshort⟩ := servePosition_pool (p := p) s
  rw [hshort, State.granted, grantUpTo_segsOf hp, if_pos rfl, List.length_append]
  rfl

/-- After its service a position stands on the shortfall list exactly when it is short (R81). -/
theorem mem_servePosition_short (hnodup : s.pool.short.Nodup) (q : Nat) : q ∈ (servePosition p s).pool.short ↔
    if q = p then s.granted p + (s.grants p).length < (s.ecAt p).request else q ∈ s.pool.short := by
  rw [servePosition_short hp]
  by_cases hqp : q = p
  · subst hqp
    rw [if_pos rfl]
    split_ifs with hless hin
    · exact iff_of_true hin hless
    · exact iff_of_true (by simp) hless
    · exact iff_of_false (fun hin => (hnodup.mem_erase_iff.1 hin).1 rfl) hless
  · rw [if_neg hqp]
    split_ifs <;> simp [hqp, List.mem_erase_of_ne]

theorem servePosition_short_nodup (hnodup : s.pool.short.Nodup) : (servePosition p s).pool.short.Nodup := by
  rw [servePosition_short hp]
  split_ifs with _ hin
  · exact hnodup
  · exact List.nodup_append'.2 ⟨hnodup, List.nodup_singleton p, by simpa using hin⟩
  · exact hnodup.erase p

variable {s}

theorem PoolLaw.servePosition (h : PoolLaw s) (hnodup : s.pool.short.Nodup) : PoolLaw (servePosition p s) := by
  obtain ⟨hlists, hsegs, _⟩ := servePosition_pool (p := p) s
  obtain ⟨_, _, hrange⟩ := id h
  have hset := (h.grantUpTo hp ((s.ecAt p).request - s.granted p)).setShort (Machine.servePosition p s).pool.short
    fun q hq => by
      rw [mem_servePosition_short hp s hnodup] at hq
      split_ifs at hq with hqp
      · exact hqp ▸ hp
      · exact hrange q hq
  have hseg (g : Nat) : (Machine.servePosition p s).segAt g =
      (Machine.grantUpTo p ((s.ecAt p).request - s.granted p) s).segAt g := congrArg (fun l => tget l g) hsegs
  exact hset.of_owners ⟨hlists, rfl, fun g _ => by rw [hseg]; rfl⟩ fun g _ _ => by rw [hseg]; rfl

/-- A position that has no more than its request is served, or waits while no segment is free (R82, R83, R86). -/
theorem SoundBut.servePosition (h : SoundBut p s) (hup : (s.linkAt p).state = .up)
    (hle : s.granted p ≤ (s.ecAt p).request) : EchoSound (servePosition p s) := by
  obtain ⟨hpool, hcancel, hnodup, hnone, hothers⟩ := h
  obtain ⟨_, hsegs, _⟩ := servePosition_pool (p := p) s
  have hmem := mem_servePosition_short hp s hnodup
  have hlink : (Machine.servePosition p s).link = s.link := by simp
  have hec : (Machine.servePosition p s).ec = s.ec := by simp
  have hgot : (s.grants p).length = min ((s.ecAt p).request - s.granted p) s.freeSegs.length := by simp [State.grants]
  refine ⟨hpool.servePosition hp hnodup, (shortfallLaw_iff _).2
    ⟨⟨servePosition_short_nodup hp s hnodup, fun q hq => ?_⟩, fun hne => ?_⟩,
    (hcancel.grantUpTo p _).of_eq hsegs (by simp)⟩
  · by_cases hqp : q = p
    · subst hqp
      refine .of_up (by rwa [linkAt_congr hlink]) ?_ ?_ ?_
      · rw [hmem, if_pos rfl, servePosition_granted hp, ecAt_congr hec]
      · rw [servePosition_granted hp, ecAt_congr hec]
        omega
      · rw [ecAt_congr hec]
        exact hcancel.request_le hp
    · refine (hothers q hq hqp).of_demand (by rw [linkAt_congr hlink]) (by rw [ecAt_congr hec]) ?_ ?_
      · rw [servePosition_segsOf hp, if_neg hqp]
      · rw [hmem, if_neg hqp]
  · rw [servePosition_freeSegs]
    by_cases hwaiting : s.pool.short = []
    · rw [servePosition_short hp, hwaiting] at hne
      have hless : s.granted p + (s.grants p).length < (s.ecAt p).request := by
        by_contra hfull
        exact hne (by rw [if_neg hfull]; rfl)
      exact List.drop_eq_nil_of_le (by omega)
    · rw [hnone hwaiting, List.drop_nil]

end

/-! ### A position that is to give some back -/

theorem setShort_granted (l : List Nat) (s : State) (p : Nat) : (s.setShort l).granted p = s.granted p := rfl

/-- The tail beyond what `p` may hold goes to the waiting positions (R84, R87, R88). -/
theorem SoundBut.giveBack {p n : Nat} {s : State} (hp : p < 16) (h : SoundBut p s)
    (hup : (s.linkAt p).state = .up → s.granted p - n = (s.ecAt p).request)
    (hdown : (s.linkAt p).state ≠ .up → s.granted p ≤ n) :
    EchoSound (serveShort (freeTail p n (s.setShort (s.pool.short.erase p)))) := by
  obtain ⟨hpool, hcancel, hnodup, _, hothers⟩ := h
  have hmost := hcancel.request_le hp
  have hpoolT := (hpool.eraseShort p).freeTail hp n
  have hcancelT := CancellerLaw.freeTail hp n (s := s.setShort (s.pool.short.erase p)) (hcancel.of_eq rfl rfl)
  obtain ⟨hown, hother, _, hshort⟩ := freeTail_spec hp n (s.setShort (s.pool.short.erase p))
  have hlinkT : (freeTail p n (s.setShort (s.pool.short.erase p))).link = s.link := by simp
  have hecT : (freeTail p n (s.setShort (s.pool.short.erase p))).ec = s.ec := by simp
  generalize freeTail p n (s.setShort (s.pool.short.erase p)) = t at *
  have hgranted : t.granted p = s.granted p - n := by
    simp only [State.granted, hown, State.setShort_segsOf, List.length_take]
    omega
  have hshort' : t.pool.short = s.pool.short.erase p := hshort
  refine PoolInOrder.serveShort ⟨hpoolT, ⟨hshort' ▸ hnodup.erase p, fun q hq => ?_⟩, hcancelT⟩
  by_cases hqp : q = p
  · subst hqp
    have hout : q ∉ t.pool.short := by
      rw [hshort', hnodup.mem_erase_iff]
      simp
    by_cases hstate : (s.linkAt q).state = .up
    · have hall := hup hstate
      refine .of_up (by rwa [linkAt_congr hlinkT]) (iff_of_false hout ?_) ?_ ?_
      all_goals rw [ecAt_congr hecT]
      all_goals omega
    · have hnothing := hdown hstate
      refine ⟨iff_of_false hout fun hboth => hstate ?_, ?_, ?_, fun _ => List.eq_nil_of_length_eq_zero ?_⟩
      · rw [← linkAt_congr hlinkT]
        exact hboth.1
      · omega
      · rwa [ecAt_congr hecT]
      · exact hgranted.trans (by omega)
  · refine (hothers q hq hqp).of_demand (by rw [linkAt_congr hlinkT]) (by rw [ecAt_congr hecT]) (hother q hqp) ?_
    rw [hshort', List.mem_erase_of_ne hqp]

/-! ### The events of the pool -/

theorem CancellerLaw.modEc {s : State} {p : Nat} {f : Canceller → Canceller} (h : CancellerLaw s)
    (hf : (s.ecAt p).InRange → (f (s.ecAt p)).InRange) : CancellerLaw (s.modEc p f) := by
  obtain ⟨hec, hsegs⟩ := h
  refine ⟨fun q hq => ?_, hsegs⟩
  rw [State.modEc_ecAt]
  split
  next hpq => exact hf (hec p hpq.2)
  next => exact hec q hq

/-- A change of p's canceller that leaves its request keeps the laws. -/
theorem EchoSound.modEc {s : State} {p : Nat} {f : Canceller → Canceller} (h : EchoSound s)
    (hf : (s.ecAt p).InRange → (f (s.ecAt p)).InRange) (hrequest : (f (s.ecAt p)).request = (s.ecAt p).request) :
    EchoSound (s.modEc p f) := by
  obtain ⟨_, _, hcancel⟩ := id h
  refine h.of_pool rfl (hcancel.modEc hf) fun q _ => ⟨Iff.rfl, ?_⟩
  rw [State.modEc_ecAt]
  split
  next hpq => rw [hrequest, hpq.1]
  next => rfl

theorem EchoSound.rightlyShort {s : State} (h : EchoSound s) {p : Nat} (hp : p < 16) : s.RightlyShort p := by
  obtain ⟨_, hlaw, _⟩ := h
  obtain ⟨⟨_, hentries⟩, _⟩ := (shortfallLaw_iff s).1 hlaw
  exact hentries p hp

/-- A request of at most 8 keeps the laws, whichever way it changes (R83 to R85). -/
theorem EchoSound.setRequest {p r : Nat} {s : State} (hp : p < 16) (hr : r ≤ 8) (h : EchoSound s) :
    EchoSound (setRequest p r s) := by
  obtain ⟨_, _, hcancel⟩ := id h
  obtain ⟨hiff, _, _, hnone⟩ := h.rightlyShort hp
  have hstored : CancellerLaw (s.modEc p (fun c => { c with request := r })) :=
    hcancel.modEc fun ⟨hh, hx, hg, hhang, hs, hs', hshift, _, hw⟩ => ⟨hh, hx, hg, hhang, hs, hs', hshift, hr, hw⟩
  have hbut : SoundBut p (s.modEc p (fun c => { c with request := r })) :=
    h.soundBut p (.of_pool rfl) (fun _ _ _ => rfl) hstored (fun _ _ => rfl) fun q hqp => by simp [Ne.symm hqp]
  have hrequest : ((s.modEc p (fun c => { c with request := r })).ecAt p).request = r := by simp [hp]
  unfold Machine.setRequest
  dsimp only
  split_ifs with hsame hdown hless
  · exact h
  · have hheld := hnone hdown
    obtain ⟨hpool, _, hnodup, hfree, hothers⟩ := hbut
    refine ⟨hpool, (shortfallLaw_iff _).2 ⟨⟨hnodup, fun q hq => ?_⟩, hfree⟩, hstored⟩
    by_cases hqp : q = p
    · subst hqp
      have hgranted : (s.modEc q (fun c => { c with request := r })).granted q = 0 := congrArg List.length hheld
      refine ⟨iff_of_false (fun hin => hdown (hiff.1 hin).1) (fun hboth => hdown hboth.1), ?_, ?_, fun _ => hheld⟩
      all_goals rw [hrequest]
      · omega
      · exact hr
    · exact hothers q hq hqp
  · exact hbut.servePosition hp (not_not.1 hdown) (by rw [hrequest]; omega)
  · refine hbut.giveBack hp (fun _ => ?_) fun hne => absurd (not_not.1 hdown) hne
    rw [hrequest, setShort_granted]
    omega

/-- A link that leaves UP gives every segment of its position back (R87). -/
theorem EchoSound.poolLinkDown {p : Nat} {f : Link → Link} {s : State} (hp : p < 16) (h : EchoSound s)
    (hdown : (f (s.linkAt p)).state ≠ .up) : EchoSound (poolLinkDown p (s.modLink p f)) := by
  obtain ⟨_, _, hcancel⟩ := id h
  have hbut : SoundBut p (s.modLink p f) :=
    h.soundBut p (.of_pool rfl) (fun _ _ _ => rfl) (hcancel.of_eq rfl rfl) (fun q hqp => by simp [Ne.symm hqp])
      fun _ _ => rfl
  have hlink : (s.modLink p f).linkAt p = f (s.linkAt p) := by simp [hp]
  exact hbut.giveBack hp (fun hup => absurd (hlink ▸ hup) hdown) fun _ => Nat.le_refl _

end Sys2Proof.Machine
end

section
/-! SUPPORT. The canceller (chapter 4): what zeroed coefficients, an update and an arrival make of the segments and of the
record of each position (R60 to R68, R74). -/

namespace Sys2Proof.Machine

/-! ### Zeroed coefficients (R74, R75) -/

section
variable (p : Nat) (s : State)

/-- Zeroing the coefficients of some segments leaves all else. -/
theorem zeroed_spec (l : List Nat) :
    let t := l.foldl (fun s g => s.modSeg g (fun x => { x with coeffs := Segment.free.coeffs })) s
    t.pool.lists = s.pool.lists ∧ t.pool.short = s.pool.short ∧ t.ec = s.ec ∧
      ∀ g, g < 64 → t.segAt g = if g ∈ l then { s.segAt g with coeffs := Segment.free.coeffs } else s.segAt g := by
  induction l generalizing s with
  | nil => simp
  | cons a l ih =>
    obtain ⟨hlists, hshort, hec, hseg⟩ := ih (s.modSeg a (fun x => { x with coeffs := Segment.free.coeffs }))
    refine ⟨hlists, hshort, hec, fun g hg => (hseg g hg).trans ?_⟩
    rw [State.modSeg_segAt]
    by_cases hga : g = a
    · subst hga
      simp [hg]
    · simp [hga, Ne.symm hga]

theorem zeroCanceller_lists : (zeroCanceller p s).pool.lists = s.pool.lists := (zeroed_spec s (s.segsOf p)).1

theorem zeroCanceller_short : (zeroCanceller p s).pool.short = s.pool.short := (zeroed_spec s (s.segsOf p)).2.1

theorem zeroCanceller_segAt {g : Nat} (hg : g < 64) : (zeroCanceller p s).segAt g =
    if g ∈ s.segsOf p then { s.segAt g with coeffs := Segment.free.coeffs } else s.segAt g :=
  (zeroed_spec s (s.segsOf p)).2.2.2 g hg

theorem zeroCanceller_ec : (zeroCanceller p s).ec = (s.modEc p (fun c => { c with hangover := 0 })).ec := by
  obtain ⟨_, _, hec, _⟩ := zeroed_spec s (s.segsOf p)
  rw [zeroCanceller, State.modEc_ec, State.modEc_ec, hec]

theorem zeroCanceller_owners : OwnersStand s (zeroCanceller p s) :=
  ⟨zeroCanceller_lists p s, zeroCanceller_short p s, fun g hg => by rw [zeroCanceller_segAt p s hg]; split <;> rfl⟩

/-- Zeroing leaves what a free segment holds: zeros (R80). -/
theorem zeroCanceller_free {s : State} (h : PoolLaw s) (g : Nat) (hg : g < 64) (hfree : (s.segAt g).owner = none) :
    ((zeroCanceller p s).segAt g).coeffs = (s.segAt g).coeffs := by
  obtain ⟨_, hsegs, _⟩ := h
  obtain ⟨_, hzero⟩ := hsegs g hg
  rw [zeroCanceller_segAt p s hg]
  split
  · exact (hzero hfree).symm
  · rfl

theorem CancellerLaw.zeroCanceller {s : State} (h : CancellerLaw s) : CancellerLaw (zeroCanceller p s) := by
  have hhang : CancellerLaw (s.modEc p (fun c => { c with hangover := 0 })) :=
    h.modEc fun ⟨hh, hx, hg, _, hrest⟩ => ⟨hh, hx, hg, Nat.zero_le _, hrest⟩
  obtain ⟨hec, hsegs⟩ := hhang
  refine ⟨fun q hq => ?_, fun g hg => ?_⟩
  · rw [ecAt_congr (zeroCanceller_ec p s)]
    exact hec q hq
  · rw [zeroCanceller_segAt p s hg]
    split
    · exact free_inRange
    · exact hsegs g hg

end

/-- RESET_EC keeps the laws (R74). -/
theorem EchoSound.zeroCanceller {s : State} (h : EchoSound s) (p : Nat) : EchoSound (Machine.zeroCanceller p s) := by
  obtain ⟨hpool, hlaw, hcancel⟩ := h
  refine ⟨hpool.of_owners (zeroCanceller_owners p s) (zeroCanceller_free p hpool),
    hlaw.of_demand (zeroCanceller_owners p s) fun q _ => ?_, hcancel.zeroCanceller p⟩
  have hlink : (Machine.zeroCanceller p s).link = s.link := by simp
  rw [linkAt_congr hlink, ecAt_congr (zeroCanceller_ec p s), State.modEc_ecAt]
  refine ⟨Iff.rfl, ?_⟩
  split
  next hpq => rw [hpq.1]
  next => rfl

/-- A link that comes UP zeroes its canceller and takes segments for its stored request (R75, R86). -/
theorem EchoSound.poolLinkUp {p : Nat} {f : Link → Link} {s : State} (hp : p < 16) (h : EchoSound s)
    (hup : (f (s.linkAt p)).state = .up) : EchoSound (poolLinkUp p (Machine.zeroCanceller p (s.modLink p f))) := by
  obtain ⟨hpool, _, hcancel⟩ := id h
  obtain ⟨_, hle, _⟩ := h.rightlyShort hp
  have hpool' : PoolLaw (s.modLink p f) := hpool.of_eq rfl
  have hcancel' : CancellerLaw (s.modLink p f) := hcancel.of_eq rfl rfl
  have hlink : (Machine.zeroCanceller p (s.modLink p f)).link = (s.modLink p f).link := by simp
  have hec := zeroCanceller_ec p (s.modLink p f)
  have howners : OwnersStand s (Machine.zeroCanceller p (s.modLink p f)) := zeroCanceller_owners p (s.modLink p f)
  have hrequest : ((Machine.zeroCanceller p (s.modLink p f)).ecAt p).request = (s.ecAt p).request := by
    rw [ecAt_congr hec]
    simp [hp]
  refine SoundBut.servePosition hp ?_ ?_ ?_
  · refine h.soundBut p howners (zeroCanceller_free p hpool') (hcancel'.zeroCanceller p) (fun q hqp => ?_) fun q hqp => ?_
    · rw [linkAt_congr hlink, State.modLink_linkAt, if_neg (fun h => hqp h.1.symm)]
    · rw [ecAt_congr hec, State.modEc_ecAt, if_neg (fun h => hqp h.1.symm)]
      rfl
  · rw [linkAt_congr hlink, State.modLink_linkAt, if_pos ⟨rfl, hp⟩, hup]
  · rw [hrequest, State.granted, howners.segsOf]
    exact hle

/-! ### The update of the coefficients (R60, R67) -/

/-- The 32 history values of the segment at place `i` of a list (R60). -/
def historyPart (hist : List Int) (i : Nat) : List Int := (hist.drop (32 * i)).take 32

section
variable (gain : Int) (hist : List Int)

theorem updateSegs_owners (i : Nat) (l : List Nat) (s : State) : OwnersStand s (updateSegs gain hist i l s) := by
  induction l generalizing i s with
  | nil => exact .of_pool rfl
  | cons a l ih =>
    obtain ⟨hlists, hshort, howner⟩ := ih (i + 1) (s.modSeg a (fun x =>
      { x with coeffs := updateTaps gain x.coeffs (historyPart hist i) }))
    refine ⟨hlists, hshort, fun g hg => (howner g hg).trans ?_⟩
    rw [State.modSeg_segAt]
    split
    next hga => rw [hga.1]
    next => rfl

theorem updateSegs_other (i : Nat) (l : List Nat) (s : State) (g : Nat) (hg : g ∉ l) :
    (updateSegs gain hist i l s).segAt g = s.segAt g := by
  induction l generalizing i s with
  | nil => rfl
  | cons a l ih =>
    rw [List.mem_cons, not_or] at hg
    obtain ⟨hga, hgl⟩ := hg
    rw [updateSegs, ih _ _ hgl, State.modSeg_segAt, if_neg (fun h => hga h.1.symm)]

theorem updateTaps_inRange {coeffs xs : List Int} (hlen : coeffs.length = 32) (hxs : xs.length = 32) :
    (updateTaps gain coeffs xs).length = 32 ∧ ∀ a ∈ updateTaps gain coeffs xs, -2147483648 ≤ a ∧ a ≤ 2147483647 := by
  refine ⟨by simp [updateTaps, hlen, hxs], fun a ha => ?_⟩
  obtain ⟨i, hi, rfl⟩ := List.getElem_of_mem ha
  simp only [updateTaps, List.getElem_zipWith]
  exact sat32_range _

theorem historyPart_length {i : Nat} (h : 32 * (i + 1) ≤ hist.length) : (historyPart hist i).length = 32 := by
  simp only [historyPart, List.length_take, List.length_drop]
  omega

/-- An update keeps 32 coefficients of 32 bits, where the history is as long as the filter (R67, R68). -/
theorem updateSegs_inRange (i : Nat) (l : List Nat) (s : State) (hlen : 32 * (i + l.length) ≤ hist.length)
    (h : ∀ g, g < 64 → (s.segAt g).InRange) (g : Nat) (hg : g < 64) : ((updateSegs gain hist i l s).segAt g).InRange := by
  induction l generalizing i s with
  | nil => exact h g hg
  | cons a l ih =>
    rw [List.length_cons] at hlen
    refine ih (i + 1) _ (by omega) fun j hj => ?_
    rw [State.modSeg_segAt]
    split
    next hja =>
      obtain ⟨hthirtytwo, _⟩ := h a hja.2
      exact updateTaps_inRange gain hthirtytwo (historyPart_length hist (by omega))
    next => exact h j hj

end

/-! ### One arrival (R61 to R67) -/

section
variable (s : State) (p : Nat) (d : Int)

/-- The reference window of p's filter (R60). -/
def State.window (s : State) (p : Nat) : List Int := (s.ecAt p).history.take (32 * (s.segsOf p).length)

/-- The power sum at p's arrival (R63, R89). -/
def State.powerAt (s : State) (p : Nat) : Int := (s.ecAt p).powerNow (32 * (s.segsOf p).length)

/-- The sample that p's canceller hands on for the microphone sample `d`, while it runs (R61, R62). -/
def State.cancelled (s : State) (p : Nat) (d : Int) : Int := sat16 (d - echoEstimate (s.coeffs p) (s.window p))

/-- The record of p's canceller after the arrival of `d`, while it runs (R63, R64). -/
def State.judged (s : State) (p : Nat) (d : Int) : Canceller :=
  { s.ecAt p with power := s.powerAt p, window := 32 * (s.segsOf p).length,
                  state := ((s.ecAt p).judge (peakOf (s.window p)) d).1,
                  hangover := ((s.ecAt p).judge (peakOf (s.window p)) d).2 }

/-- The update gain at the arrival of `d` (R67). -/
def State.gainAt (s : State) (p : Nat) (d : Int) : Int :=
  updateGain (s.ecAt p).step (s.cancelled p d) (s.powerAt p) (32 * (s.segsOf p).length)

/-- The record of a canceller that does not run (R65, R66). -/
def Canceller.off (c : Canceller) : Canceller := { c with state := .off, window := 0 }

theorem cancel_down (h : (s.linkAt p).state ≠ .up) : cancel p d s = (s.modEc p Canceller.off, 0) := by
  rw [cancel]
  exact if_pos h

theorem cancel_empty (hup : (s.linkAt p).state = .up) (h : s.segsOf p = []) :
    cancel p d s = (s.modEc p Canceller.off, d) := by
  have hlen : s.filterLength p = 0 := by simp [State.filterLength, State.granted, h]
  rw [cancel]
  dsimp only
  rw [if_neg (not_not.2 hup), if_pos hlen]
  rfl

/-- An arrival of a running canceller: its record is judged, and in ADAPTING its segments move (R61 to R67). -/
theorem cancel_running (hup : (s.linkAt p).state = .up) (h : s.segsOf p ≠ []) :
    cancel p d s =
      (if (s.judged p d).state = .adapting then
          updateSegs (s.gainAt p d) (s.ecAt p).history 0 (s.segsOf p) (s.modEc p (fun _ => s.judged p d))
        else s.modEc p (fun _ => s.judged p d), s.cancelled p d) := by
  have hlen : s.filterLength p ≠ 0 := by
    simpa [State.filterLength, State.granted, Config.segmentTaps] using h
  rw [cancel]
  dsimp only
  rw [if_neg (not_not.2 hup), if_neg hlen]
  split
  next hadapting => exact Prod.ext (if_pos (c := (s.judged p d).state = .adapting) hadapting).symm rfl
  next hother => exact Prod.ext (if_neg (c := (s.judged p d).state = .adapting) hother).symm rfl

/-- What an arrival makes of the records: that of `p` alone changes. -/
theorem cancel_ec : (cancel p d s).1.ec = (s.modEc p (fun c =>
    if (s.linkAt p).state ≠ .up ∨ s.segsOf p = [] then c.off else s.judged p d)).ec := by
  by_cases hup : (s.linkAt p).state = .up
  · by_cases hsegs : s.segsOf p = []
    · rw [cancel_empty s p d hup hsegs]
      simp [hsegs]
    · rw [cancel_running s p d hup hsegs]
      simp only [hup, hsegs, ne_eq, not_true_eq_false, or_self, if_false]
      split <;> simp
  · rw [cancel_down s p d hup]
    simp [hup]

/-- The hangover stays at most 240 (R64). -/
theorem judge_hangover_le {c : Canceller} (h : c.hangover ≤ 240) (peak : Nat) (d : Int) : (c.judge peak d).2 ≤ 240 := by
  unfold Canceller.judge
  split_ifs <;> simp only [Config.hangoverTop] <;> omega

theorem judged_inRange (h : (s.ecAt p).InRange) (hlen : (s.segsOf p).length ≤ 8) : (s.judged p d).InRange := by
  obtain ⟨hh, hx, hg, hhang, hs, hs', hshift, hrequest, _⟩ := h
  refine ⟨hh, hx, hg, judge_hangover_le hhang _ d, hs, hs', hshift, hrequest, ?_⟩
  show 32 * (s.segsOf p).length ≤ 256
  omega

theorem cancel_owners : OwnersStand s (cancel p d s).1 := by
  by_cases hup : (s.linkAt p).state = .up
  · by_cases hsegs : s.segsOf p = []
    · rw [cancel_empty s p d hup hsegs]
      exact .of_pool rfl
    · rw [cancel_running s p d hup hsegs]
      dsimp only
      split
      · exact updateSegs_owners _ _ _ _ (s.modEc p (fun _ => s.judged p d))
      · exact .of_pool rfl
  · rw [cancel_down s p d hup]
    exact .of_pool rfl

/-- An arrival changes the coefficients of its own position alone (R68). -/
theorem cancel_other (g : Nat) (hg : g ∉ s.segsOf p) : (cancel p d s).1.segAt g = s.segAt g := by
  by_cases hup : (s.linkAt p).state = .up
  · by_cases hsegs : s.segsOf p = []
    · rw [cancel_empty s p d hup hsegs]
      rfl
    · rw [cancel_running s p d hup hsegs]
      dsimp only
      split
      · exact updateSegs_other _ _ _ _ (s.modEc p (fun _ => s.judged p d)) g hg
      · rfl
  · rw [cancel_down s p d hup]
    rfl

end

theorem EchoSound.granted_le {s : State} (h : EchoSound s) {p : Nat} (hp : p < 16) : (s.segsOf p).length ≤ 8 := by
  obtain ⟨_, hle, hmost, _⟩ := h.rightlyShort hp
  exact hle.trans hmost

/-- An arrival keeps the laws (R60 to R68). -/
theorem EchoSound.cancel {s : State} (h : EchoSound s) {p : Nat} (hp : p < 16) (d : Int) : EchoSound (cancel p d s).1 := by
  have hlen := h.granted_le hp
  obtain ⟨hpool, hlaw, hcancel⟩ := h
  have howners := cancel_owners s p d
  have hlink : (Machine.cancel p d s).1.link = s.link := by simp
  have hec := cancel_ec s p d
  refine ⟨hpool.of_owners howners fun g hg hfree => ?_, hlaw.of_demand howners fun q hq => ?_, fun q hq => ?_,
    fun g hg => ?_⟩
  · have hout : g ∉ s.segsOf p := fun hmem => by
      obtain ⟨_, hsegs, _⟩ := hpool
      obtain ⟨hown, _⟩ := hsegs g hg
      have := (hown p).2 ⟨hp, hmem⟩
      rw [hfree] at this
      cases this
    rw [cancel_other s p d g hout]
  · rw [linkAt_congr hlink, ecAt_congr hec, State.modEc_ecAt]
    refine ⟨Iff.rfl, ?_⟩
    split_ifs with hpq
    · rw [hpq.1]; rfl
    · rw [← hpq.1]; rfl
    · rfl
  · obtain ⟨hranges, _⟩ := hcancel
    rw [ecAt_congr hec, State.modEc_ecAt]
    split_ifs with hpq
    · obtain ⟨hh, hx, hg, hhang, hs, hs', hshift, hrequest, _⟩ := hranges p hp
      exact ⟨hh, hx, hg, hhang, hs, hs', hshift, hrequest, Nat.zero_le _⟩
    · exact judged_inRange s p d (hranges p hp) hlen
    · exact hranges q hq
  · obtain ⟨hranges, hsegs⟩ := hcancel
    obtain ⟨hhistory, _⟩ := hranges p hp
    by_cases hup : (s.linkAt p).state = .up
    · by_cases hnil : s.segsOf p = []
      · rw [cancel_empty s p d hup hnil]
        exact hsegs g hg
      · rw [cancel_running s p d hup hnil]
        dsimp only
        split
        · refine updateSegs_inRange _ (s.ecAt p).history 0 (s.segsOf p) (s.modEc p (fun _ => s.judged p d)) ?_ hsegs g hg
          omega
        · exact hsegs g hg
    · rw [cancel_down s p d hup]
      exact hsegs g hg

/-! ### A new reference sample (R59) -/

theorem push_inRange {c : Canceller} {x : Int} (hx : Fits16 x) (h : c.InRange) : (c.push x).InRange := by
  obtain ⟨hlen, hfits, _, hrest⟩ := h
  refine ⟨by simp [Canceller.push, hlen], fun y hy => ?_, ?_, hrest⟩
  · rcases List.mem_cons.1 hy with rfl | hy
    · exact hx
    · exact hfits y (List.mem_of_mem_take hy)
  · show Fits16 (c.history.getD 255 0)
    rw [List.getD_eq_getElem _ _ (by omega)]
    exact hfits _ (List.getElem_mem _)

end Sys2Proof.Machine
end

section
/-! SUPPORT. The power sum (R63, R89): the update that an arrival makes of it. -/

namespace Sys2Proof.Machine

theorem powerOf_cons (x : Int) (xs : List Int) : powerOf (x :: xs) = x * x + powerOf xs := by simp [powerOf]

theorem powerOf_concat (xs : List Int) (x : Int) : powerOf (xs ++ [x]) = powerOf xs + x * x := by simp [powerOf]

/-- The history of the frame before: without the newest value, and with the one that has left since (R63). -/
def Canceller.past (c : Canceller) : List Int := c.history.drop 1 ++ [c.gone]

theorem push_past {c : Canceller} (h : c.history.length = 256) (x : Int) : (c.push x).past = c.history := by
  show c.history.take 255 ++ [c.history.getD 255 0] = c.history
  rw [List.getD_eq_getElem _ _ (by omega), List.take_append_getElem]
  exact List.take_of_length_le (by omega)

/-- The update of an exact sum is exact, and a changed length forms it in full (R63, R89). -/
theorem powerNow_exact {c : Canceller} {len : Nat} (hhistory : c.history.length = 256) (hpos : 1 ≤ len) (hmost : len ≤ 256)
    (h : c.window = len → c.power = powerOf (c.past.take len)) : c.powerNow len = powerOf (c.history.take len) := by
  unfold Canceller.powerNow
  split
  next hsame =>
    obtain ⟨n, rfl⟩ : ∃ n, len = n + 1 := ⟨len - 1, by omega⟩
    unfold Canceller.past at h
    cases hist : c.history with
    | nil => simp [hist] at hhistory
    | cons x xs =>
      rw [hist, List.length_cons] at hhistory
      have hold : (xs ++ [c.gone]).take (n + 1) = xs.take n ++ [xs.getD n c.gone] := by
        rw [List.take_add_one, List.take_append_of_le_length (by omega)]
        rcases Nat.lt_or_ge n xs.length with hlt | hge
        · simp [List.getElem?_append_left hlt, List.getElem?_eq_getElem hlt]
        · have hn : n = xs.length := by omega
          simp [hn]
      rw [h hsame, hist, List.drop_one, List.tail_cons, hold, powerOf_concat, List.take_succ_cons, powerOf_cons]
      simp only [List.headD_cons, List.getD_cons_succ]
      ring
  next => rfl

end Sys2Proof.Machine
end

section
/-! SUPPORT. How one step can move the cancellers and the pool: every operation is a chain of these moves, and each move keeps
the laws (R58 to R89). -/

namespace Sys2Proof.Machine

/-! ### The kinds of move -/

/-- The pool, the cancellers, the count of words and which links are UP stand. -/
def EchoStands (s t : State) : Prop :=
  t.pool = s.pool ∧ t.ec = s.ec ∧ t.words = s.words ∧ ∀ p, p < 16 → ((t.linkAt p).state = .up ↔ (s.linkAt p).state = .up)

theorem EchoStands.of_fields {s t : State} (hpool : t.pool = s.pool) (hec : t.ec = s.ec) (hwords : t.words = s.words)
    (hlink : t.link = s.link) : EchoStands s t := ⟨hpool, hec, hwords, fun p _ => by rw [linkAt_congr hlink]⟩

/-- One move of the cancellers and the pool. -/
inductive EchoMove (s : State) : State → Prop where
  /-- nothing of them changes -/
  | stand {t : State} (h : EchoStands s t) : EchoMove s t
  /-- p's record changes in its settings and its state (R70, R161) -/
  | tuned (p : Nat) (f : Canceller → Canceller) (hp : p < 16)
      (hf : (s.ecAt p).InRange → (f (s.ecAt p)).InRange)
      (hkeep : f (s.ecAt p) = { f (s.ecAt p) with
        history := (s.ecAt p).history, gone := (s.ecAt p).gone, power := (s.ecAt p).power, window := (s.ecAt p).window,
        request := (s.ecAt p).request }) : EchoMove s (s.modEc p f)
  /-- the request of `p` becomes `r` (R83 to R85) -/
  | request (p r : Nat) (hp : p < 16) (hr : r ≤ 8) : EchoMove s (setRequest p r s)
  /-- p's coefficients and hangover are zeroed (R74) -/
  | zeroed (p : Nat) (hp : p < 16) : EchoMove s (zeroCanceller p s)
  /-- p's link comes UP (R75, R86) -/
  | up (p : Nat) (f : Link → Link) (hp : p < 16) (hf : (f (s.linkAt p)).state = .up) :
      EchoMove s (poolLinkUp p (zeroCanceller p (s.modLink p f)))
  /-- p's link leaves UP (R87) -/
  | down (p : Nat) (f : Link → Link) (hp : p < 16) (hf : (f (s.linkAt p)).state ≠ .up) :
      EchoMove s (poolLinkDown p (s.modLink p f))
  /-- the sample of the port that is next arrives (R61 to R67, R154) -/
  | arrival (d : Int) (hp : s.words < 16) : EchoMove s ((cancel s.words d s).1.setWords (s.words + 1))
  /-- the reference of a new frame joins each history (R59) -/
  | frame {t : State} (hfull : 16 ≤ s.words) (hpool : t.pool = s.pool) (hwords : t.words = 0)
      (hup : ∀ p, p < 16 → ((t.linkAt p).state = .up ↔ (s.linkAt p).state = .up))
      (hec : ∀ p, p < 16 → ∃ x, Fits16 x ∧ t.ecAt p = (s.ecAt p).push x) : EchoMove s t
  /-- the part is reset (R58, R80) -/
  | reset {t : State} (hpool : t.pool = State.reset.pool) (hec : t.ec = State.reset.ec) (hlink : t.link = State.reset.link) :
      EchoMove s t

/-- A chain of moves. -/
abbrev EchoMoves : State → State → Prop := Relation.ReflTransGen EchoMove

theorem EchoMoves.of_stands {s t : State} (h : EchoStands s t) : EchoMoves s t := .single (.stand h)

theorem EchoMoves.of_fields {s t : State} (hpool : t.pool = s.pool) (hec : t.ec = s.ec) (hwords : t.words = s.words)
    (hlink : t.link = s.link) : EchoMoves s t := .of_stands (.of_fields hpool hec hwords hlink)

theorem EchoMoves.then_fields {s t u : State} (h : EchoMoves s t) (hpool : u.pool = t.pool) (hec : u.ec = t.ec)
    (hwords : u.words = t.words) (hlink : u.link = t.link) : EchoMoves s u :=
  h.trans (EchoMoves.of_fields hpool hec hwords hlink)

/-! ### The laws that every move keeps -/

theorem EchoMove.echoSound {s t : State} (hm : EchoMove s t) (h : EchoSound s) : EchoSound t := by
  cases hm with
  | stand hstands =>
    obtain ⟨hpool, hec, _, hup⟩ := hstands
    exact h.of_eq hpool hec hup
  | tuned p f _ hf hkeep => exact h.modEc hf (by rw [hkeep])
  | request p r hp hr => exact h.setRequest hp hr
  | zeroed p _ => exact h.zeroCanceller p
  | up p f hp hf => exact h.poolLinkUp hp hf
  | down p f hp hf => exact h.poolLinkDown hp hf
  | arrival d hp => exact (h.cancel hp d).of_eq rfl rfl fun _ _ => Iff.rfl
  | frame _ hpool _ hup hec =>
    obtain ⟨_, _, hcancel⟩ := id h
    obtain ⟨hranges, hsegs⟩ := hcancel
    refine h.of_pool hpool ⟨fun p hp => ?_, fun g hg => ?_⟩ fun p hp => ⟨hup p hp, ?_⟩
    · obtain ⟨x, hx, heq⟩ := hec p hp
      rw [heq]
      exact push_inRange hx (hranges p hp)
    · rw [segAt_congr hpool]
      exact hsegs g hg
    · obtain ⟨x, _, heq⟩ := hec p hp
      rw [heq]
      rfl
  | reset hpool hec hlink =>
    exact EchoSound.of_eq ⟨reset_poolLaw, reset_shortfallLaw, reset_cancellerLaw⟩ hpool hec fun p _ => by
      rw [linkAt_congr hlink]

/-- The power sums stay exact where the histories, the windows and the count of words stand. -/
theorem PowerLaw.of_records {s t : State} (h : PowerLaw s) (hwords : t.words = s.words)
    (hec : ∀ p, p < 16 → (t.ecAt p).history = (s.ecAt p).history ∧ (t.ecAt p).gone = (s.ecAt p).gone ∧
      (t.ecAt p).power = (s.ecAt p).power ∧ (t.ecAt p).window = (s.ecAt p).window) : PowerLaw t := fun p hp => by
  obtain ⟨hhistory, hgone, hpower, hwindow⟩ := hec p hp
  rw [hhistory, hgone, hpower, hwindow, hwords]
  exact h p hp

theorem PowerLaw.of_ec {s t : State} (h : PowerLaw s) (hwords : t.words = s.words) (hec : t.ec = s.ec) : PowerLaw t :=
  h.of_records hwords fun p _ => by rw [ecAt_congr hec]; simp

theorem PowerLaw.modEc {s : State} (h : PowerLaw s) (p : Nat) (f : Canceller → Canceller)
    (hf : (f (s.ecAt p)).history = (s.ecAt p).history ∧ (f (s.ecAt p)).gone = (s.ecAt p).gone ∧
      (f (s.ecAt p)).power = (s.ecAt p).power ∧ (f (s.ecAt p)).window = (s.ecAt p).window) : PowerLaw (s.modEc p f) :=
  h.of_records rfl fun q _ => by
    rw [State.modEc_ecAt]
    split
    next hpq => exact hpq.1 ▸ hf
    next => simp

/-- A changed request leaves the records but for the request itself. -/
theorem setRequest_ec (p r : Nat) (s : State) :
    (setRequest p r s).ec = s.ec ∨ (setRequest p r s).ec = (s.modEc p (fun c => { c with request := r })).ec := by
  unfold setRequest
  dsimp only
  split_ifs
  · exact .inl rfl
  · exact .inr rfl
  · exact .inr (by simp)
  · exact .inr (by simp)

theorem arrival_power {s : State} {d : Int} (hp : s.words < 16) (hs : EchoSound s) (h : PowerLaw s) :
    PowerLaw ((cancel s.words d s).1.setWords (s.words + 1)) := by
  have hlen := hs.granted_le hp
  obtain ⟨_, _, hranges, _⟩ := hs
  obtain ⟨hhistory, _⟩ := hranges _ hp
  intro p hp16
  rw [State.setWords_ecAt, State.setWords_words, ecAt_congr (cancel_ec s s.words d), State.modEc_ecAt]
  by_cases hpw : s.words = p
  · subst hpw
    rw [if_pos ⟨rfl, hp⟩, if_pos (Nat.lt_succ_self _)]
    split_ifs with hoff
    · exact fun hne => absurd rfl hne
    · obtain ⟨_, hsegs⟩ := not_or.1 hoff
      have hpos := List.length_pos_iff.2 hsegs
      intro _
      refine powerNow_exact hhistory (by omega) (by omega) fun hwindow => ?_
      have hsum := h _ hp (by omega)
      rwa [if_neg (Nat.lt_irrefl _), hwindow] at hsum
  · rw [if_neg (fun h => hpw h.1)]
    have hiff : p < s.words + 1 ↔ p < s.words := by omega
    simp only [hiff]
    exact h p hp16

theorem EchoMove.powerLaw {s t : State} (hm : EchoMove s t) (hs : EchoSound s) (h : PowerLaw s) : PowerLaw t := by
  cases hm with
  | stand hstands =>
    obtain ⟨_, hec, hwords, _⟩ := hstands
    exact h.of_ec hwords hec
  | tuned p f _ _ hkeep => exact h.modEc p f (by rw [hkeep]; simp)
  | request p r _ _ =>
    rcases setRequest_ec p r s with heq | heq
    · exact h.of_ec (by simp) heq
    · exact (h.modEc p (fun c => { c with request := r }) ⟨rfl, rfl, rfl, rfl⟩).of_ec (by simp) heq
  | zeroed p _ =>
    exact (h.modEc p (fun c => { c with hangover := 0 }) ⟨rfl, rfl, rfl, rfl⟩).of_ec (by simp) (zeroCanceller_ec p s)
  | up p f _ _ =>
    have hec : (poolLinkUp p (zeroCanceller p (s.modLink p f))).ec = (s.modEc p (fun c => { c with hangover := 0 })).ec := by
      have := zeroCanceller_ec p (s.modLink p f)
      simpa using this
    exact (h.modEc p (fun c => { c with hangover := 0 }) ⟨rfl, rfl, rfl, rfl⟩).of_ec (by simp) hec
  | down p f _ _ => exact h.of_ec (by simp) (by simp)
  | arrival d hp => exact arrival_power hp hs h
  | frame hfull _ hwords _ hec =>
    obtain ⟨_, _, hranges, _⟩ := hs
    intro p hp hwindow
    obtain ⟨x, _, heq⟩ := hec p hp
    obtain ⟨hhistory, _⟩ := hranges p hp
    have hsum := h p hp (by rwa [heq] at hwindow)
    rw [if_pos (by omega)] at hsum
    have hpast := push_past hhistory x
    rw [hwords, if_neg (Nat.not_lt_zero p), heq]
    show (s.ecAt p).power = powerOf (((s.ecAt p).push x).past.take (s.ecAt p).window)
    rw [hpast, hsum]
  | reset hpool hec hlink =>
    intro p hp hwindow
    rw [ecAt_congr hec, reset_ecAt p hp] at hwindow
    exact absurd rfl hwindow

theorem EchoMoves.echoSound {s t : State} (h : EchoMoves s t) (hs : EchoSound s) : EchoSound t := by
  induction h with
  | refl => exact hs
  | tail _ hmove ih => exact hmove.echoSound ih

theorem EchoMoves.powerLaw {s t : State} (h : EchoMoves s t) (hs : EchoSound s) (hpower : PowerLaw s) : PowerLaw t := by
  induction h with
  | refl => exact hpower
  | tail hmoves hmove ih => exact hmove.powerLaw (EchoMoves.echoSound hmoves hs) ih

end Sys2Proof.Machine
end

section
/-! SUPPORT. Each operation of the model as a chain of moves of the cancellers and the pool, up to the step; and the
statements. -/

namespace Sys2Proof.Machine

/-! ### Headset words (chapter 9) -/

theorem EchoMoves.modLink (p : Nat) (f : Link → Link) (s : State)
    (hf : (f (s.linkAt p)).state = .up ↔ (s.linkAt p).state = .up) : EchoMoves s (s.modLink p f) := by
  refine .of_stands ⟨rfl, rfl, rfl, fun q _ => ?_⟩
  rw [State.modLink_linkAt]
  split
  next hpq => rw [← hpq.1, hf]
  next => exact Iff.rfl

theorem linkUp_echo (p : Nat) (v : Int) (b : Bool) (s : State) (hp : p < 16) : EchoMoves s (linkUp p v b s) :=
  EchoMoves.then_fields (.single (.up p (fun l =>
    { l with state := .up, goodRun := 0, badRun := 0, held := v, stable := b, change := 0 }) hp rfl))
    (State.post_pool ..) (State.post_ec ..) (State.post_words ..) (State.post_link ..)

theorem linkDown_echo (p : Nat) (s : State) (hp : p < 16) : EchoMoves s (linkDown p s) := by
  have hdown := EchoMove.down (s := s) p (fun l =>
    { l with state := .down, goodRun := 0, badRun := 0, held := 0, stable := false, change := 0 }) hp (by simp)
  have hoff (t : State) := EchoMove.tuned (s := t) p (fun c => { c with state := .off }) hp id rfl
  exact EchoMoves.then_fields (.tail (.single hdown) (hoff _)) (State.post_pool ..) (State.post_ec ..)
    (State.post_words ..) (State.post_link ..)

theorem debounce_echo (p : Nat) (b : Bool) (s : State) : EchoMoves s (debounce p b s) := by
  have hpress (t : State) : EchoMoves t (pressButton p t) := .of_fields (by simp) (by simp) (by simp) (by simp)
  unfold debounce
  dsimp only
  split_ifs
  · exact .modLink p _ s Iff.rfl
  · exact .modLink p _ s Iff.rfl
  · exact (EchoMoves.modLink p _ s Iff.rfl).trans (hpress _)
  · exact .modLink p _ s Iff.rfl

/-- A word hands on a sample after moves of the link; no word is counted yet (R158 to R164). -/
theorem headsetWord_echo (p : Nat) (w : BitVec 19) (s : State) (hp : p < 16) :
    ∃ d u, headsetWord p w s = handOn p d u ∧ EchoMoves s u ∧ u.words = s.words := by
  unfold headsetWord
  split
  · unfold goodWord
    dsimp only
    split
    next hdown => exact ⟨_, _, rfl, .modLink p _ s (by simp [hdown]), rfl⟩
    next hprobing =>
      split
      · exact ⟨_, _, rfl, linkUp_echo p _ _ s hp, by simp⟩
      · exact ⟨_, _, rfl, .modLink p _ s Iff.rfl, rfl⟩
    next hup => exact ⟨_, _, rfl, (EchoMoves.modLink p _ s Iff.rfl).trans (debounce_echo p _ _), by simp⟩
  · unfold badWord
    dsimp only
    split
    next => exact ⟨_, _, rfl, .refl, rfl⟩
    next hprobing => exact ⟨_, _, rfl, .modLink p _ s (by simp [hprobing]), rfl⟩
    next hup =>
      split
      · exact ⟨_, _, rfl, linkDown_echo p s hp, by simp⟩
      · exact ⟨_, _, rfl, .modLink p _ s Iff.rfl, rfl⟩

theorem takeWord_echo (w : BitVec 19) (s : State) (hp : s.words < 16) : EchoMoves s (takeWord s.words w s) := by
  obtain ⟨d, u, heq, hmoves, hwords⟩ := headsetWord_echo s.words w s hp
  rw [takeWord, heq, ← hwords]
  have hraw : EchoMoves s (u.modMix u.words (fun m => { m with raw := d })) := hmoves.then_fields rfl rfl rfl rfl
  refine EchoMoves.then_fields (hraw.tail (.arrival d (by rw [← hwords] at hp; exact hp))) ?_ ?_ ?_ ?_
  all_goals simp [handOn]

theorem fillWords_echo (n : Nat) (s : State) (h : s.words + n ≤ 16) : EchoMoves s (fillWords n s) := by
  induction n generalizing s with
  | zero => exact .refl
  | succ n ih =>
    refine (takeWord_echo 0 s (by omega)).trans (ih _ ?_)
    show s.words + 1 + n ≤ 16
    omega

theorem missingWords_echo (s : State) : EchoMoves s (missingWords s) := by
  rcases Nat.lt_or_ge 16 s.words with hfull | hroom
  · rw [missingWords_none s (by omega)]
  · exact fillWords_echo _ s (by omega)

theorem headsetWordArrival_echo (p : Fin 16) (w : BitVec 19) (s : State) : EchoMoves s (headsetWordArrival p.val w s) := by
  rcases headsetWordArrival_cases p.val w s with ⟨_, heq⟩ | ⟨hle, heq⟩
  · rw [heq]
  · rw [heq]
    have hwords : (fillWords (p.val - s.words) s).words = p.val := by
      rw [fillWords_words]
      omega
    have hword := takeWord_echo w (fillWords (p.val - s.words) s) (by omega)
    rw [hwords] at hword
    exact (fillWords_echo _ s (by omega)).trans hword

/-! ### Frames (chapter 10) -/

theorem sendHeadset_ecAt (p : Nat) (s : State) (q : Nat) : (sendHeadset p s).ecAt q =
    if p = q ∧ p < 16 then (s.ecAt p).push (if (s.linkAt p).state = .up then (s.mixAt p).x else 0) else s.ecAt q := by
  rw [sendHeadset, State.modLink_ecAt, State.modEc_ecAt]
  simp only [beq_iff_eq]

/-- The outbound word of the frame (R155). -/
def State.headsetOut (s : State) (p : Nat) : BitVec 18 :=
  outboundWord (if (s.linkAt p).state = .up then (s.mixAt p).e else 0) (s.posAt p).effMute

theorem sendHeadset_linkAt (p : Nat) (s : State) (q : Nat) : (sendHeadset p s).linkAt q =
    if p = q ∧ p < 16 then { s.linkAt p with outWord := s.headsetOut p } else s.linkAt q := by
  rw [sendHeadset, State.modLink_linkAt]
  simp only [beq_iff_eq]
  rfl

/-- What the headset words of a frame leave in every turn: the samples, the records of the positions and the link states. -/
def SourcesStand (s t : State) : Prop := t.mix = s.mix ∧ t.pos = s.pos ∧ ∀ q, (t.linkAt q).state = (s.linkAt q).state

theorem sendHeadset_sources (p : Nat) {s t : State} (h : SourcesStand s t) : SourcesStand s (sendHeadset p t) := by
  obtain ⟨hmix, hpos, hlink⟩ := h
  refine ⟨hmix, hpos, fun q => ?_⟩
  rw [sendHeadset_linkAt]
  split
  next hpq => rw [← hpq.1, ← hlink p]
  next => exact hlink q

/-- The references of a frame join the histories, each by its own turn (R59). -/
theorem sendHeadsets_ecAt (s : State) (q : Nat) (hq : q < 16) : (forPositions sendHeadset s).ecAt q =
    (s.ecAt q).push (if (s.linkAt q).state = .up then (s.mixAt q).x else 0) := by
  have hentry := forPositions_entry State.ecAt (SourcesStand s) sendHeadset
    (fun p c => c.push (if (s.linkAt p).state = .up then (s.mixAt p).x else 0)) (fun p _ h => sendHeadset_sources p h)
    (fun p q t hne => by rw [sendHeadset_ecAt, if_neg (fun h => hne h.1.symm)])
    (fun p t hp ⟨hmix, _, hlink⟩ => by rw [sendHeadset_ecAt, if_pos ⟨rfl, hp⟩, hlink, mixAt_congr hmix])
    s ⟨rfl, rfl, fun _ => rfl⟩ q
  rwa [if_pos hq] at hentry

/-- The outbound words of a frame, each by its own turn (R155). -/
theorem sendHeadsets_linkAt (s : State) (q : Nat) (hq : q < 16) : (forPositions sendHeadset s).linkAt q =
    { s.linkAt q with outWord := s.headsetOut q } := by
  have hentry := forPositions_entry State.linkAt (SourcesStand s) sendHeadset
    (fun p l => { l with outWord := s.headsetOut p }) (fun p _ h => sendHeadset_sources p h)
    (fun p q t hne => by rw [sendHeadset_linkAt, if_neg (fun h => hne h.1.symm)])
    (fun p t hp ⟨hmix, hpos, hlink⟩ => by
      have hout : t.headsetOut p = s.headsetOut p := by
        rw [State.headsetOut, hlink, mixAt_congr hmix, posAt_congr hpos]
        rfl
      rw [sendHeadset_linkAt, if_pos ⟨rfl, hp⟩, hout])
    s ⟨rfl, rfl, fun _ => rfl⟩ q
  rwa [if_pos hq] at hentry

/-- The slots and the highway leave the histories and the headset words. -/
theorem frameWork_ec_link (s : State) :
    (frameWork s).ec = (beforeHighway s).ec ∧ (frameWork s).link = (beforeHighway s).link := by
  have hslots {α : Type} (get : State → α) (h : ∀ i t, get (slotFrame i t) = get t) :
      get (forSlots slotFrame (frameOut s)) = get (frameOut s) := forSlots_field get slotFrame h _
  rw [frameWork_eq, State.setWords_ec, State.modTmn_ec, State.setWords_link, State.modTmn_link,
    hslots State.ec (fun _ _ => by simp), hslots State.link (fun _ _ => by simp), frameOut_eq]
  simp

/-- Before the headset words go out the frame has changed no canceller and no link (R19, R40). -/
theorem formed_ec_link (s : State) :
    (formAll (forPositions muteStep s)).ec = s.ec ∧ (formAll (forPositions muteStep s)).link = s.link := by
  simp [forPositions_field State.ec muteStep (fun _ _ => by simp),
    forPositions_field State.link muteStep (fun _ _ => by simp)]

theorem formed_mixAt (s : State) (p : Nat) (hp : p < 16) :
    (formAll (forPositions muteStep s)).mixAt p = (frameWork s).mixAt p := by
  rw [formAll_mixAt, if_pos hp, frameWork_mixAt s p hp]

/-- The canceller of `p` when the frame has begun: its reference has joined the history (R48, R59). -/
theorem frameWork_ecAt (s : State) (p : Nat) (hp : p < 16) : (frameWork s).ecAt p =
    (s.ecAt p).push (if (s.linkAt p).state = .up then ((frameWork s).mixAt p).x else 0) := by
  obtain ⟨hec, hlink⟩ := formed_ec_link s
  rw [ecAt_congr (frameWork_ec_link s).1, beforeHighway, sendHeadsets_ecAt _ p hp, ecAt_congr hec, linkAt_congr hlink,
    formed_mixAt s p hp]

/-- The link record of `p` when the frame has begun: its outbound word has gone out (R155). -/
theorem frameWork_linkAt (s : State) (p : Nat) (hp : p < 16) : (frameWork s).linkAt p =
    { s.linkAt p with
      outWord := outboundWord (if (s.linkAt p).state = .up then ((frameWork s).mixAt p).e else 0) (s.posAt p).effMute } := by
  obtain ⟨_, hlink⟩ := formed_ec_link s
  have heffMute : ((formAll (forPositions muteStep s)).posAt p).effMute = (s.posAt p).effMute := by
    obtain ⟨r, hr⟩ := (ramps_stepped s).posAt_ramp
    rw [posAt_congr (s := forPositions muteStep s) (by simp), hr]
  rw [linkAt_congr (frameWork_ec_link s).2, beforeHighway, sendHeadsets_linkAt _ p hp, State.headsetOut, linkAt_congr hlink,
    formed_mixAt s p hp, heffMute]

theorem frameWork_echo (s : State) (hwords : 16 ≤ s.words) : EchoMoves s (frameWork s) := by
  refine .single (.frame hwords ?_ (frameWork_words s) (fun p hp => by rw [frameWork_linkAt s p hp]) fun p hp => ?_)
  · obtain ⟨_, _, _, hpool, _⟩ := frameWork_keeps s
    exact hpool
  · refine ⟨_, ?_, frameWork_ecAt s p hp⟩
    split
    · rw [frameWork_mixAt s p hp]
      exact fits16_sat16 _
    · exact fits16_zero

theorem blockBoundary_echo (s : State) : EchoMoves s (blockBoundary s) := by
  rcases blockBoundary_cases s with ⟨_, heq⟩ | ⟨_, heq⟩
  · rw [heq]
    have hgrace (t : State) : EchoMoves t (graceExpiry t) := .of_fields (by simp) (by simp) (by simp) (by simp)
    exact ((missingWords_echo s).then_fields (by simp) (by simp) (by simp) (by simp)).trans (hgrace _)
  · rw [heq]

theorem frameBoundary_echo (s : State) : EchoMoves s (frameBoundary s) := by
  unfold frameBoundary
  split
  · have hwords : 16 ≤ (blockBoundary (missingWords s)).words := by
      rcases blockBoundary_cases (missingWords s) with ⟨_, heq⟩ | ⟨_, heq⟩
      · rw [heq]
        simp [missingWords_words]
      · rw [heq, missingWords_words]
        omega
    exact ((missingWords_echo s).trans (blockBoundary_echo _)).trans (frameWork_echo _ hwords)
  · exact .refl

theorem makeBoundary_echo (n : NextFrame) (s : State) : EchoMoves s (makeBoundary n s) :=
  (blockBoundary_echo s).then_fields rfl rfl rfl rfl

theorem graceTimerExpiry_echo (s : State) : EchoMoves s (graceTimerExpiry s) := by
  unfold graceTimerExpiry
  split_ifs
  · exact .of_fields (by simp) (by simp) (by simp) (by simp)
  · exact blockBoundary_echo s
  · exact .refl

theorem lock_echo (rx : Tab 32 Byte) (s : State) : EchoMoves s (lock rx s) := by
  unfold lock
  dsimp only
  split
  · exact (makeBoundary_echo (.line rx) s).then_fields (by simp) (by simp) (by simp) (by simp)
  · exact .of_fields (by simp) (by simp) (by simp) (by simp)

theorem lineSync_echo (rx : Tab 32 Byte) (s : State) : EchoMoves s (lineSync rx s) := by
  unfold lineSync
  dsimp only
  split
  · exact .refl
  · split
    · exact .of_fields rfl rfl rfl rfl
    · split_ifs
      · exact lock_echo rx s
      · exact .of_fields rfl rfl rfl rfl
      · exact .of_fields rfl rfl rfl rfl
    · split
      · exact (makeBoundary_echo (.line rx) s).then_fields rfl rfl rfl rfl
      · exact .refl

theorem clockFail_echo (s : State) : EchoMoves s (clockFail s) := by
  unfold clockFail
  split
  · exact (makeBoundary_echo .internal s).then_fields (by simp) (by simp) (by simp) (by simp)
  · exact .refl

/-! ### Commands -/

/-- The fields of the cancellers, the pool, the words and the links stand. -/
def EchoFields (s t : State) : Prop := t.pool = s.pool ∧ t.ec = s.ec ∧ t.words = s.words ∧ t.link = s.link

theorem EchoMoves.of_echoFields {s t : State} (h : EchoFields s t) : EchoMoves s t := by
  obtain ⟨hpool, hec, hwords, hlink⟩ := h
  exact .of_fields hpool hec hwords hlink

/-- The meanings of the commands that have nothing to do with the cancellers: every one but those of SET_EC and RESET_EC,
READ_POSITION to FETCH_NOTICES aside. -/
def quietCores : List (List Byte → State → State × Answer) :=
  [connectCore, holdCore, resumeCore, releaseCore, muteCore, setCallGainsCore, setSidetoneCore, monitorCore, unmonitorCore,
   whisperPromptCore, clearWhispersCore, setLevelsCore, setNeighboursCore, clipLoadCore, clipDeleteCore, setProgrammeCore,
   callerPromptCore, stopPromptCore, storeEraseCore, storeWriteCore, storeReadCore, fun _ => saveDirectoryCore, setGraceCore,
   forceClockFailCore, fun _ => ackClockFailCore]

theorem setLevelsCore_echo (ps : List Byte) (s : State) : EchoFields s (setLevelsCore ps s).1 :=
  forPositions_keeps (EchoFields s) (fun p u => u.modLev p _) (fun _ _ _ h => h) _ ⟨rfl, rfl, rfl, rfl⟩

theorem quietCores_echo (ps : List Byte) (s : State) : ∀ core ∈ quietCores, EchoFields s (core ps s).1 := by
  simp only [quietCores, List.forall_mem_cons, setLevelsCore_echo, true_and]
  unfold connectCore holdCore resumeCore releaseCore muteCore setCallGainsCore setSidetoneCore monitorCore unmonitorCore
    whisperPromptCore clearWhispersCore setNeighboursCore clipLoadCore clipDeleteCore setProgrammeCore callerPromptCore
    stopPromptCore storeEraseCore storeWriteCore storeReadCore saveDirectoryCore setGraceCore forceClockFailCore
    ackClockFailCore
  dsimp only
  refine ⟨?_, ?_, ?_, ?_, ?_, ?_, ?_, ?_, ?_, ?_, ?_, ?_, ?_, ?_, ?_, ?_, ?_, ?_, ?_, ?_, ?_, ?_, ?_, ?_, nofun⟩
  all_goals (repeat' split) <;> simp [EchoFields]

theorem setEcCore_echo (ps : List Byte) (s : State) : EchoMoves s (setEcCore ps s).1 := by
  unfold setEcCore
  dsimp only
  split
  · exact .refl
  next hin =>
    have hset := EchoMove.tuned (s := s) (field1 ps 0) (fun c =>
      { c with step := if field1 ps 1 = 0 then 1 else clampTo 32 (field1 ps 1), shift := clampTo 4 (field1 ps 2),
               freeze := field1 ps 3 != 0 }) (by omega)
      (fun ⟨hh, hx, hg, hhang, _, _, _, hrest⟩ => by
        refine ⟨hh, hx, hg, hhang, ?_, ?_, clampTo_le .., hrest⟩
        · show 1 ≤ if field1 ps 1 = 0 then 1 else clampTo 32 (field1 ps 1)
          split
          · exact Nat.le_refl 1
          · unfold clampTo
            split <;> omega
        · show (if field1 ps 1 = 0 then 1 else clampTo 32 (field1 ps 1)) ≤ 32
          split
          · omega
          · exact clampTo_le ..) rfl
    exact Relation.ReflTransGen.tail (.single hset) (.request _ _ (by omega) (clampTo_le ..))

theorem resetEcCore_echo (ps : List Byte) (s : State) : EchoMoves s (resetEcCore ps s).1 := by
  unfold resetEcCore
  dsimp only
  split
  · exact .refl
  · exact .single (.zeroed _ (by omega))

theorem fetchNoticesCore_echo (ps : List Byte) (r : Role) (s : State) : EchoFields s (fetchNoticesCore ps r s).1 := by
  unfold fetchNoticesCore
  dsimp only
  split
  · exact ⟨rfl, rfl, rfl, rfl⟩
  · cases r <;> exact ⟨rfl, rfl, rfl, rfl⟩

theorem readCore_echo (limit : Nat) (record : State → Nat → List Byte) (ps : List Byte) (s : State) :
    EchoFields s (readCore limit record ps s).1 := by
  unfold readCore
  split <;> exact ⟨rfl, rfl, rfl, rfl⟩

/-! ### Frames on the Control Link -/

theorem EchoMoves.takeFrame {st : Station} {code : Byte} {roles : List Role} {fits whileStarting : Bool}
    {core : Role → State → State × Answer} (hcore : ∀ r t, EchoMoves t (core r t).1) (s : State) :
    EchoMoves s (Machine.takeFrame st code roles fits whileStarting core s) :=
  takeFrame_kept (EchoMoves s) st code roles fits whileStarting core s (fun h => h.then_fields rfl rfl rfl rfl)
    (fun _ _ h => EchoMoves.then_fields h rfl rfl rfl rfl) (fun r t h => h.trans (hcore r t)) .refl

theorem EchoMoves.takeQuiet {st : Station} {code : Byte} {roles : List Role} {fits whileStarting : Bool}
    {core : Role → State → State × Answer} (hcore : ∀ r t, EchoFields t (core r t).1) (s : State) :
    EchoMoves s (Machine.takeFrame st code roles fits whileStarting core s) :=
  .takeFrame (fun r t => .of_echoFields (hcore r t)) s

/-- Every command of Table 12-1 is a chain of moves. -/
theorem handlers_echo : ∀ h ∈ handlers, ∀ (st : Station) (ps : List Byte) (s : State), EchoMoves s (h.take st ps s) := by
  have quiet {st : Station} {code : Byte} {roles : List Role} {fits whileStarting : Bool} {ps : List Byte}
      {core : List Byte → State → State × Answer} (s : State) (hcore : core ∈ quietCores := by simp [quietCores]) :
      EchoMoves s (takeFrame st code roles fits whileStarting (fun _ => core ps) s) :=
    .takeQuiet (fun _ t => quietCores_echo ps t core hcore) s
  simp only [handlers, List.forall_mem_cons]
  exact
    ⟨fun _ _ => quiet (core := connectCore), fun _ _ => quiet (core := holdCore), fun _ _ => quiet (core := resumeCore),
     fun _ _ => quiet (core := releaseCore), fun _ _ => quiet (core := muteCore),
     fun _ _ => quiet (core := setCallGainsCore), fun _ _ => quiet (core := setSidetoneCore),
     fun _ _ => quiet (core := monitorCore), fun _ _ => quiet (core := unmonitorCore),
     fun _ _ => quiet (core := whisperPromptCore), fun _ _ => quiet (core := clearWhispersCore),
     fun _ ps => .takeFrame fun _ => setEcCore_echo ps, fun _ ps => .takeFrame fun _ => resetEcCore_echo ps,
     fun _ _ => quiet (core := setLevelsCore), fun _ _ => quiet (core := setNeighboursCore),
     fun _ _ => quiet (core := clipLoadCore), fun _ _ => quiet (core := clipDeleteCore),
     fun _ _ => quiet (core := setProgrammeCore), fun _ _ => quiet (core := callerPromptCore),
     fun _ _ => quiet (core := stopPromptCore), fun _ _ => quiet (core := storeEraseCore),
     fun _ _ => quiet (core := storeWriteCore), fun _ _ => quiet (core := storeReadCore),
     fun _ ps => quiet (core := fun _ => saveDirectoryCore) (ps := ps), fun _ _ => quiet (core := setGraceCore),
     fun _ _ => quiet (core := forceClockFailCore), fun _ ps => quiet (core := fun _ => ackClockFailCore) (ps := ps),
     fun _ ps => .takeQuiet fun _ => readCore_echo 16 State.positionRecord ps,
     fun _ ps => .takeQuiet fun _ => readCore_echo 24 State.streamRecord ps,
     fun _ ps => .takeQuiet fun _ => readCore_echo 128 State.clipRecord ps,
     fun _ _ => .takeQuiet fun _ _ => ⟨rfl, rfl, rfl, rfl⟩, fun _ _ => .takeQuiet fun _ _ => ⟨rfl, rfl, rfl, rfl⟩,
     fun _ ps => .takeQuiet fun r => fetchNoticesCore_echo ps r, nofun⟩

theorem unknownCommand_echo (st : Station) (body : List Byte) (s : State) : EchoMoves s (unknownCommand st body s) := by
  unfold unknownCommand
  split_ifs
  · exact .of_fields rfl rfl rfl rfl
  · exact .of_fields rfl rfl rfl rfl
  · exact .refl

theorem takeBody_echo (st : Station) (body : List Byte) (s : State) : EchoMoves s (takeBody st body s) := by
  unfold takeBody
  split
  · exact unknownCommand_echo st [] s
  · split
    next h hfound => exact handlers_echo h (List.mem_of_find?_eq_some hfound) st _ s
    next => exact unknownCommand_echo st _ s

/-! ### The receiver -/

theorem EchoMoves.modPort (f : Port → Port) (s : State) : EchoMoves s (s.modPort f) := .of_fields rfl rfl rfl rfl

theorem takeCheck_echo (d : Byte) (s : State) : EchoMoves s (takeCheck d s) := by
  unfold takeCheck
  split
  · split
    · exact takeBody_echo ..
    · exact .modPort _ s
  · exact .modPort _ s

theorem takeCharacter_echo (ch : BitVec 12) (s : State) : EchoMoves s (takeCharacter ch s) := by
  unfold takeCharacter
  dsimp only
  split
  · exact .modPort _ s
  · split
    · exact .refl
    · exact .modPort _ s
    · exact .modPort _ s
    · exact takeCheck_echo _ s

theorem characterArrives_echo (ch : BitVec 12) (low : Nat) (s : State) : EchoMoves s (characterArrives ch low s) := by
  rcases characterArrives_cases ch low s with ⟨_, h⟩ | ⟨_, _, h⟩ | ⟨_, _, _, h⟩ | ⟨_, _, _, h⟩
  all_goals rw [h]
  · exact .modPort _ s
  · exact (EchoMoves.modPort _ s).trans (takeCharacter_echo ch _)
  · exact (EchoMoves.modPort _ s).trans (EchoMoves.modPort _ _)
  · exact .modPort _ s

theorem goodCharacter_echo (ch : BitVec 12) (w : CharacterTime) (s : State) : EchoMoves s (goodCharacter ch w s) := by
  cases w with
  | begins low =>
    show EchoMoves s (characterBegins ch low s)
    rcases characterBegins_cases ch low s with ⟨_, _, h⟩ | ⟨_, h⟩
    · rw [h]
      exact .modPort _ s
    · rw [h]
  | ended low =>
    show EchoMoves s (characterEnds ch low s)
    unfold characterEnds
    split
    · exact (characterArrives_echo ch 0 s).trans (EchoMoves.modPort _ _)
    · exact characterArrives_echo ch low s

theorem frameAbandoned_echo (why : AbandonCause) (s : State) : EchoMoves s (frameAbandoned why s) := by
  unfold frameAbandoned
  split
  · exact characterArrives_echo ..
  · exact .refl

/-! ### The other rows -/

theorem takeEntries_echo (dir : List Byte) (l : List Nat) (acc : State × Nat) :
    EchoFields acc.1 (l.foldl (takeEntry dir) acc).1 := by
  induction l generalizing acc with
  | nil => exact ⟨rfl, rfl, rfl, rfl⟩
  | cons i l ih =>
    have hentry : EchoFields acc.1 (takeEntry dir acc i).1 := by
      unfold takeEntry
      repeat' split
      all_goals simp [EchoFields]
    obtain ⟨hpool, hec, hwords, hlink⟩ := ih (takeEntry dir acc i)
    obtain ⟨hpool', hec', hwords', hlink'⟩ := hentry
    exact ⟨hpool.trans hpool', hec.trans hec', hwords.trans hwords', hlink.trans hlink'⟩

theorem startupLoadEnd_echo (dir : List Byte) (s : State) : EchoMoves s (startupLoadEnd dir s) := by
  have hends (c : Cause) (n : Nat) (t : State) : EchoMoves t (loadEnds c n t) :=
    .of_fields (by simp) (by simp) (by simp) (by simp)
  unfold startupLoadEnd
  dsimp only
  split
  · split
    · have htaken := takeEntries_echo dir (List.range (dirCount dir))
        (s.modStore (fun u => { u with request := some (lastRead dir) }), 0)
      exact (EchoMoves.of_echoFields (s := s) htaken).trans (hends _ _ _)
    · exact .of_fields (by simp) (by simp) (by simp) (by simp)
  · exact .refl

/-- The rows of the start-up load and of the Control Link's limits and replies have nothing to do with the cancellers. -/
theorem quietRows_echo (s : State) : EchoFields s (startupStoreReady s) ∧ EchoFields s (startupNoStore s) ∧
    EchoFields s (receiverIdleTimeout s) ∧ EchoFields s (replyStart s) ∧ EchoFields s (replyDrop s) ∧
    EchoFields s (replyCollision s) ∧ EchoFields s (replyEnd s) := by
  unfold startupStoreReady startupNoStore receiverIdleTimeout replyStart replyDrop replyCollision replyEnd
  refine ⟨?_, ?_, ?_, ?_, ?_, ?_, ?_⟩
  all_goals (repeat' split) <;> simp [EchoFields]

/-- Every row is a chain of moves. -/
theorem exec_echo (c : Instr) (s t : State) (h : exec c s = .next t) : EchoMoves s t := by
  obtain ⟨hstoreReady, hnoStore, hidle, hstart, hdrop, hcollision, hend⟩ := quietRows_echo s
  cases hb : frameBody c with
  | some frame =>
    rcases exec_frame c frame.1 frame.2 s hb with hc | hc
    all_goals
      rw [hc] at h
      cases h
    · exact takeBody_echo ..
    · exact unknownCommand_echo ..
  | none =>
    cases c with
    | deviceReset straps => cases h; exact .single (.reset rfl rfl rfl)
    | startupStoreReady => cases h; exact .of_echoFields hstoreReady
    | startupNoStore => cases h; exact .of_echoFields hnoStore
    | startupLoadEnd dir => cases h; exact startupLoadEnd_echo dir s
    | frameBoundary => cases h; exact frameBoundary_echo s
    | blockBoundary => cases h; exact blockBoundary_echo s
    | graceTimerExpiry => cases h; exact graceTimerExpiry_echo s
    | lineSync rx => cases h; exact lineSync_echo rx s
    | acquisitionTimeout => cases h; exact .of_echoFields (by simp [EchoFields])
    | clockFail => cases h; exact clockFail_echo s
    | headsetWordArrival p w => cases h; exact headsetWordArrival_echo p w s
    | fetchGrant => cases h; exact .of_echoFields (by simp [EchoFields])
    | fetchArrival bytes => cases h; exact .of_echoFields (by simp [EchoFields])
    | fetchTimeout => cases h; exact .of_echoFields (by simp [EchoFields])
    | operationStepStart => cases h; exact .of_echoFields (by simp [EchoFields])
    | stepStoreReady => cases h; exact .of_echoFields (by simp [EchoFields])
    | eraseDone => cases h; exact .of_echoFields (by simp [EchoFields])
    | eraseTimeout => cases h; exact .of_echoFields (by simp [EchoFields])
    | suspendTimeout => cases h; exact .of_echoFields (by simp [EchoFields])
    | eraseResume => cases h; exact .of_echoFields (by simp [EchoFields])
    | programDone => cases h; exact .of_echoFields (by simp [EchoFields])
    | programTimeout => cases h; exact .of_echoFields (by simp [EchoFields])
    | storeReadServe => cases h; exact .of_echoFields (by simp [EchoFields])
    | storeReadComplete bytes => cases h; exact .of_echoFields (by simp [EchoFields])
    | storeReadAbandon => cases h; exact .of_echoFields (by simp [EchoFields])
    | receiverIdleTimeout => cases h; exact .of_echoFields hidle
    | frameAbandoned why => cases h; exact frameAbandoned_echo why s
    | goodCharacter ch w => cases h; exact goodCharacter_echo ch w s
    | linkBreak => cases h; exact .modPort _ s
    | replyStart => cases h; exact .of_echoFields hstart
    | replyDrop => cases h; exact .of_echoFields hdrop
    | replyCollision => cases h; exact .of_echoFields hcollision
    | replyEnd => cases h; exact .of_echoFields hend
    | resetPinHeld => cases h; exact .of_fields rfl rfl rfl rfl
    | _ => cases hb

/-- Every step is a chain of moves. -/
theorem step_echo (s t : State) (h : step s = .next t) : EchoMoves s t :=
  step_kept (EchoMoves s) (fun _ _ h => EchoMoves.then_fields h rfl rfl rfl rfl)
    (fun c _ u h hc => h.trans (exec_echo c _ u hc)) (fun _ h => EchoMoves.then_fields h rfl rfl rfl rfl) s t .refl h

end Sys2Proof.Machine

open Sys2Proof.Machine

/-- Settles O56: every step is a chain of moves, and each move keeps the laws of the pool and the cancellers. -/
theorem segmentsStayAccountedFor : Obligations.SegmentsStayAccountedFor :=
  fun s t _ hs hstep => (step_echo s t hstep).echoSound hs

/-- Settles O25: the update of an exact sum is exact, and every step is a chain of moves that keep the sums exact. -/
theorem powerSumStaysExact : Obligations.PowerSumStaysExact := by
  refine ⟨fun c x len hlen hpos hmost => ⟨rfl, fun _ hexact => ?_, fun hother => ?_⟩,
    fun s t hs hpower hstep => (step_echo s t hstep).powerLaw hs hpower⟩
  · have hlen' : (c.push x).history.length = 256 := by simp [Canceller.push, hlen]
    exact powerNow_exact hlen' hpos hmost fun _ => by rwa [push_past hlen]
  · exact if_neg hother

end

section
/-! SUPPORT. RESET_EC on the state of the accepted frame, and the statement on the canceller's commands. -/

namespace Sys2Proof.Machine

/-- Zeroing changes the records of the cancellers and the pool alone. -/
theorem zeroCanceller_eq (p : Nat) (s : State) :
    zeroCanceller p s = { s with ec := (zeroCanceller p s).ec, pool := (zeroCanceller p s).pool } := by
  obtain ⟨hpending, hmode, hheld, hpos, hlink, hlev, hparams, hmix, hclip, hslot, hprog, hqueue, hwait, hstore, htmn, hhwy,
    hwords, hport, hcall, hfloor, hmaint⟩ := zeroCanceller_keeps p s
  generalize zeroCanceller p s = t at *
  cases t
  simp only at *
  subst_vars
  rfl

theorem zeroCanceller_ecAt (p : Nat) (s : State) (q : Nat) : (zeroCanceller p s).ecAt q =
    if p = q ∧ p < 16 then { s.ecAt p with hangover := 0 } else s.ecAt q := by
  rw [ecAt_congr (zeroCanceller_ec p s), State.modEc_ecAt]

end Sys2Proof.Machine

open Sys2Proof Sys2Proof.Machine

/-- Settles O26: SET_EC by its clamped fields, RESET_EC by what zeroing does entry by entry. -/
theorem cancellerCommandsStoreAndZero : Obligations.CancellerCommandsStoreAndZero := by
  intro st p a b f n s hs hp256 ha hb hf hn
  have hset (status : Status) (hcore : setEcCore [toByte p, toByte a, toByte b, toByte f, toByte n] s.accepted =
      (s.accepted, .bare status)) :
      exec (.setEc st [toByte p, toByte a, toByte b, toByte f, toByte n]) s = s.refuses st 0x30 status :=
    heeded_refusal hs rfl hcore
  have hreset (t : State) (answer : Answer) (hcore : resetEcCore [toByte p] s.accepted = (t, answer)) :
      exec (.resetEc st [toByte p]) s = .next (t.owe st 0x31 answer) := heeded_answer hs rfl hcore
  simp only [setEcCore, resetEcCore, field1_succ, field1_toByte p _ hp256] at hset hreset
  refine ⟨fun hout => ⟨hset _ (if_pos hout), hreset _ _ (if_pos hout)⟩, fun hp => ?_⟩
  have hin : ¬ 15 < p := by omega
  refine ⟨heeded_answer hs rfl ?_, (zeroCanceller p s.accepted).owe st 0x31 { status := .done }, ?_, ?_, ?_, ?_, ?_, ?_, ?_⟩
  · have hstep : (if a = 0 then 1 else min 32 a) = max 1 (min 32 a) := by split <;> omega
    have hfreeze : (f != 0) = decide (f ≠ 0) := (congrArg not (beq_eq_decide f 0)).trans decide_not.symm
    simp only [setEcCore, field1_succ, field1_toByte p _ hp256, field1_toByte a _ ha, field1_toByte b _ hb,
      field1_toByte f _ hf, field1_toByte n _ hn, if_neg hin, clampTo_eq_min, hstep, hfreeze]
    simp only [Answer.clampedDone, Bool.decide_or, Bool.or_assoc, beq_eq_decide]
  · exact hreset _ _ (if_neg hin)
  · exact (zeroCanceller_ecAt p s.accepted p).trans (if_pos ⟨rfl, hp⟩)
  · exact fun q _ hne => (zeroCanceller_ecAt p s.accepted q).trans (if_neg fun h => hne h.1.symm)
  · exact fun g hg => zeroCanceller_segAt p s.accepted hg
  · exact zeroCanceller_lists p s.accepted
  · exact zeroCanceller_short p s.accepted
  · exact congrArg (fun t => State.owe t st 0x31 { status := .done }) (zeroCanceller_eq p s.accepted)

end

section
/-! SUPPORT. What goes out with a frame: the drive set and the bytes by the sender of each timeslot, the headset word bit by
bit, and the statement (R155, R167 to R169). -/

namespace Sys2Proof.Machine

/-! ### The outbound word -/

theorem append_bit_zero {n : Nat} (x : BitVec n) (b : Bool) : (x ++ BitVec.ofBool b).getLsbD 0 = b := by
  rw [BitVec.getLsbD_append]
  simp

theorem append_bit_succ {n : Nat} (x : BitVec n) (b : Bool) (i : Nat) :
    (x ++ BitVec.ofBool b).getLsbD (i + 1) = x.getLsbD i := by
  rw [BitVec.getLsbD_append]
  simp

theorem ones_append_bit {n : Nat} (x : BitVec n) (b : Bool) : ones (x ++ BitVec.ofBool b) = ones x + b.toNat := by
  have hmap : ((List.range n).map Nat.succ).filter (fun i => (x ++ BitVec.ofBool b).getLsbD i) =
      ((List.range n).filter (fun i => x.getLsbD i)).map Nat.succ := by
    rw [List.filter_map]
    simp only [Function.comp_def, Nat.succ_eq_add_one, append_bit_succ]
  rw [ones, ones, List.range_succ_eq_map, List.filter_cons, append_bit_zero, hmap]
  cases b <;> simp

/-- The parity bit makes the number of ones even (R155). -/
theorem outboundWord_even (e : Int) (lamp : Bool) : ones (outboundWord e lamp) % 2 = 0 := by
  rw [outboundWord, ones_append_bit]
  rcases Nat.mod_two_eq_zero_or_one (ones (sampleBits e ++ BitVec.ofBool lamp)) with h | h
  · simp [h]
  · simp [h]
    omega

theorem outboundWord_sample (e : Int) (lamp : Bool) : (outboundWord e lamp).extractLsb' 2 16 = sampleBits e := by
  refine BitVec.eq_of_getLsbD_eq fun i hi => ?_
  rw [BitVec.getLsbD_extractLsb', outboundWord, show 2 + i = i + 1 + 1 by omega, append_bit_succ, append_bit_succ]
  simp [hi]

theorem outboundWord_lamp (e : Int) (lamp : Bool) : (outboundWord e lamp).getLsbD 1 = lamp := by
  exact (append_bit_succ _ _ 0).trans (append_bit_zero _ _)

/-! ### The senders -/

section
variable (s : State)

theorem senderOf_some {ts p : Nat} (h : s.senderOf ts = some p) :
    p < 16 ∧ (s.posAt p).binding.map (·.tx) = some ts := by
  have hfound := List.find?_some h
  have hmem := List.mem_of_find?_eq_some h
  exact ⟨by simpa using hmem, by simpa using hfound⟩

theorem senderOf_isSome (ts : Nat) :
    (s.senderOf ts).isSome = true ↔ ∃ p, p < 16 ∧ (s.posAt p).binding.map (·.tx) = some ts := by
  rw [State.senderOf, List.find?_isSome]
  simp

/-- No two positions have one send timeslot, so the sender is the position that is bound to it (R8). -/
theorem senderOf_eq (h : SendLaw s) {ts p : Nat} (hp : p < 16) (htx : (s.posAt p).binding.map (·.tx) = some ts) :
    s.senderOf ts = some p := by
  obtain ⟨q, hq⟩ := Option.isSome_iff_exists.1 ((senderOf_isSome s ts).2 ⟨p, hp, htx⟩)
  obtain ⟨hlt, htx'⟩ := senderOf_some s hq
  obtain ⟨b, hb, rfl⟩ := Option.map_eq_some_iff.1 htx
  obtain ⟨c, hc, hsame⟩ := Option.map_eq_some_iff.1 htx'
  by_cases hpq : p = q
  · rw [hq, hpq]
  · exact absurd hsame.symm (h p hp q hlt hpq b c hb hc)

theorem sentBytes_entry (b : Nat → Option Byte) (v : Tab 32 (Option Byte)) (n : Nat) (hn : n ≤ 32) (ts : Nat) :
    tget ((List.range n).foldl (fun t ts => tset t ts (b ts)) v) ts = if ts < n then b ts else tget v ts := by
  induction n with
  | zero => rfl
  | succ n ih =>
    rw [List.range_succ, List.foldl_append, List.foldl_cons, List.foldl_nil, tget_tset, ih (by omega)]
    split_ifs <;> grind

/-- What the highway drives on a timeslot (R169, R196). -/
theorem sendHighway_tx (rx : Option (Tab 32 Byte)) {ts : Nat} (hts : ts < 32) :
    tget (sendHighway rx s).hwy.tx ts = if rx.isSome ∧ ¬ s.resetHeld then s.sendByte ts else none := by
  unfold sendHighway
  dsimp only
  split
  · rw [sentBytes_entry _ _ 32 (Nat.le_refl 32), if_pos hts]
  · exact tget_replicate ts _ hts

theorem mem_drive (rx : Option (Tab 32 Byte)) (ts : Nat) :
    ts ∈ (sendHighway rx s).hwy.drive ↔ ts < 32 ∧ (s.senderOf ts).isSome := by simp [sendHighway]

end

/-! ### A frame on the highway -/

section
variable (s : State)

theorem frameWork_hwy_eq : (frameWork s).hwy = (sendHighway s.tmn.lineOf (beforeHighway s)).hwy := frameWork_hwy s

theorem beforeHighway_senderOf (ts : Nat) : (beforeHighway s).senderOf ts = s.senderOf ts :=
  List.find?_congr fun p _ => by rw [beforeHighway_binding]

/-- The trunk-send sample of a bound position goes out on its send timeslot (R8, R169). -/
theorem beforeHighway_sendByte {ts p : Nat} (hp : p < 16) (hsender : s.senderOf ts = some p) :
    (beforeHighway s).sendByte ts = ((frameWork s).mixAt p).t.map lawEncode := by
  rw [State.sendByte, beforeHighway_senderOf, hsender]
  exact congrArg (fun m : Mix => m.t.map lawEncode) (beforeHighway_mixAt s p hp)

/-- A position in a call has a trunk-send sample in every frame (R49 to R51). -/
theorem frameWork_t_ne_none {p : Nat} (hp : p < 16) (hcall : (s.posAt p).call ≠ .free) : ((frameWork s).mixAt p).t ≠ none := by
  rw [frameWork_mixAt s p hp]
  show (forPositions muteStep s).trunkSend p ≠ none
  have hramps := ramps_stepped s
  cases hstate : (s.posAt p).call with
  | free => exact absurd hstate hcall
  | connected => simp [hramps.trunkSend_connected hstate]
  | held => simp [hramps.trunkSend_held hstate]

/-- The bytes of a frame, timeslot by timeslot (R167, R169, R196). -/
theorem frameWork_tx {ts : Nat} (hts : ts < 32) : tget (frameWork s).hwy.tx ts =
    if s.tmn.lineOf.isSome ∧ ¬ s.resetHeld then (beforeHighway s).sendByte ts else none := by
  rw [frameWork_hwy_eq, sendHighway_tx _ _ hts, beforeHighway_resetHeld]

theorem frameWork_rx : (frameWork s).hwy.rx = s.tmn.lineOf := by
  rw [frameWork_hwy_eq]
  rfl

theorem mem_frameWork_drive (ts : Nat) : ts ∈ (frameWork s).hwy.drive ↔ ts < 32 ∧ (s.senderOf ts).isSome := by
  rw [frameWork_hwy_eq, mem_drive, beforeHighway_senderOf]

end

end Sys2Proof.Machine

open Sys2Proof Sys2Proof.Machine

/-- Settles O47: the frame's work on the highway by the sender of each timeslot, and on each headset by its own turn. -/
theorem framesSendBytesAndWords : Obligations.FramesSendBytesAndWords := by
  intro s hrecord hbegin hwords hframes
  refine ⟨frameWork s, congrArg Host.Outcome.next (frameBoundary_frame ((mayBegin_iff s.tmn).2 hbegin) hwords hframes),
    fun rx hline => ?_, fun hinternal => ?_, fun ts => ?_, fun ts hts => ⟨fun hsilent => ?_, fun hunbound => ?_, ?_⟩,
    fun p hp => ⟨?_, ?_, ?_, ?_, ?_⟩⟩
  · rw [frameWork_rx, Timing.lineOf, hline]
  · rw [frameWork_rx, Timing.lineOf]
    rcases hinternal with h | h <;> rw [h]
  · rw [mem_frameWork_drive, senderOf_isSome]
    refine and_iff_right_of_imp fun ⟨p, hp, htx⟩ => ?_
    obtain ⟨b, hb, rfl⟩ := Option.map_eq_some_iff.1 htx
    obtain ⟨_, _, hrange, _⟩ := hrecord p hp
    exact (hrange b hb).2
  · rw [frameWork_rx] at hsilent
    rw [frameWork_tx s hts, if_neg]
    rintro ⟨hline, hheld⟩
    rcases hsilent with h | h
    · simp [h] at hline
    · exact hheld h
  · have hnone : s.senderOf ts = none := by
      rw [← Option.not_isSome_iff_eq_none, senderOf_isSome]
      exact fun ⟨p, hp, htx⟩ => hunbound p hp htx
    have hbyte : (beforeHighway s).sendByte ts = none := by rw [State.sendByte, beforeHighway_senderOf, hnone]
    rw [frameWork_tx s hts, hbyte, ite_self]
  · intro p hsend hline hheld hp htx
    rw [frameWork_rx] at hline
    have hbyte : tget (frameWork s).hwy.tx ts = ((frameWork s).mixAt p).t.map lawEncode := by
      rw [frameWork_tx s hts, if_pos ⟨Option.isSome_iff_ne_none.2 hline, by simp [hheld]⟩,
        beforeHighway_sendByte s hp (senderOf_eq s hsend hp htx)]
    obtain ⟨b, hb, _⟩ := Option.map_eq_some_iff.1 htx
    obtain ⟨hbound, _⟩ := hrecord p hp
    rw [hbyte]
    exact ⟨rfl, fun hnone => frameWork_t_ne_none s hp (hbound.1 (by rw [hb]; rfl)) (Option.map_eq_none_iff.1 hnone)⟩
  · rw [frameWork_linkAt s p hp]
  · rw [frameWork_linkAt s p hp]
    exact outboundWord_sample ..
  · rw [frameWork_linkAt s p hp]
    exact outboundWord_lamp ..
  · rw [frameWork_linkAt s p hp]
    exact outboundWord_even ..
  · exact frameWork_ecAt s p hp

end

section
/-! SUPPORT. The sample of one word: what handing it on makes of the canceller, the microphone and the block totals of its
position, and that it leaves all else (R61 to R67, R89, R95, R96). -/

namespace Sys2Proof.Machine

/-! ### The parts of a sample's way -/

/-- The state when the microphone sample has been kept raw, and its canceller is next (R162). -/
def State.heard (s : State) (p : Nat) (d : Int) : State := s.modMix p (fun m => { m with raw := d })

/-- The sample that p's canceller hands on to the suppressor (R61, R65, R66). -/
def State.handedOn (s : State) (p : Nat) (d : Int) : Int := (cancel p d (s.heard p d)).2

section
variable (s : State) (p : Nat) (d : Int)

theorem handOn_eq_suppress : handOn p d s = suppress p (s.handedOn p d) (cancel p d (s.heard p d)).1 := rfl

theorem handedOn_down (h : (s.linkAt p).state ≠ .up) : s.handedOn p d = 0 := by
  rw [State.handedOn, cancel_down (s.heard p d) p d h]

/-- The sample that a link in UP hands on (R61, R62, R66). -/
theorem handedOn_up (hup : (s.linkAt p).state = .up) : s.handedOn p d = if s.segsOf p = [] then d else s.cancelled p d := by
  rw [State.handedOn]
  split
  next hnil => rw [cancel_empty (s.heard p d) p d hup hnil]
  next hsegs =>
    rw [cancel_running (s.heard p d) p d hup hsegs]
    rfl

theorem handOn_pool : (handOn p d s).pool = (cancel p d (s.heard p d)).1.pool := by
  rw [handOn_eq_suppress]
  simp

theorem handOn_ecAt (q : Nat) : (handOn p d s).ecAt q =
    if p = q ∧ p < 16 then
      if (s.linkAt p).state ≠ .up ∨ s.segsOf p = [] then (s.ecAt p).off else s.judged p d
    else s.ecAt q := by
  have hec : (handOn p d s).ec = (cancel p d (s.heard p d)).1.ec := by
    rw [handOn_eq_suppress]
    simp
  rw [ecAt_congr hec, ecAt_congr (cancel_ec (s.heard p d) p d), State.modEc_ecAt]
  rfl

theorem handOn_mixAt (q : Nat) : (handOn p d s).mixAt q =
    if p = q ∧ p < 16 then
      { s.mixAt p with raw := d, processed := scaled (s.handedOn p d) (tableGain (s.levAt p).atten) }
    else s.mixAt q := by
  have hmix : (cancel p d (s.heard p d)).1.mix = (s.heard p d).mix := by simp
  have hlev : (cancel p d (s.heard p d)).1.lev = s.lev := by simp [State.heard]
  have hraw (r : Nat) : (s.heard p d).mixAt r = if p = r ∧ p < 16 then { s.mixAt p with raw := d } else s.mixAt r :=
    State.modMix_mixAt ..
  rw [handOn_eq_suppress, suppress, State.modLev_mixAt, State.modMix_mixAt, mixAt_congr hmix, mixAt_congr hmix,
    levAt_congr hlev, hraw, hraw]
  split
  next hpq => rw [if_pos ⟨rfl, hpq.2⟩]
  next => rfl

theorem handOn_levAt (q : Nat) : (handOn p d s).levAt q =
    if p = q ∧ p < 16 then
      { s.levAt p with
        energy := (s.levAt p).energy + (s.handedOn p d).natAbs ^ 2
        adapting := (s.levAt p).adapting + if ((handOn p d s).ecAt p).state = .adapting then 1 else 0 }
    else s.levAt q := by
  have hlev : (cancel p d (s.heard p d)).1.lev = s.lev := by simp [State.heard]
  have hec : (handOn p d s).ec = (cancel p d (s.heard p d)).1.ec := by
    rw [handOn_eq_suppress]
    simp
  rw [ecAt_congr hec, handOn_eq_suppress, suppress, State.modLev_levAt, State.modMix_levAt, State.modMix_levAt,
    levAt_congr hlev, levAt_congr hlev]
  simp only [State.modMix_ecAt, bit, beq_iff_eq, Nat.pow_two]

/-- A sample changes its position's canceller, microphone and totals, and its segments (R61 to R67, R95, R96). -/
theorem handOn_eq : handOn p d s =
    { s with ec := (handOn p d s).ec, mix := (handOn p d s).mix, lev := (handOn p d s).lev,
             pool := (handOn p d s).pool } := by
  obtain ⟨hpending, hmode, hheld, hpos, hlink, hparams, hclip, hslot, hprog, hqueue, hwait, hstore, htmn, hhwy, hwords,
    hport, hcall, hfloor, hmaint⟩ := handOn_keeps p d s
  generalize handOn p d s = t at *
  cases t
  simp only at *
  subst_vars
  rfl

theorem handOn_owners : OwnersStand s (handOn p d s) := by
  have hpool := handOn_pool s p d
  obtain ⟨hlists, hshort, howner⟩ := cancel_owners (s.heard p d) p d
  exact ⟨by rw [hpool]; exact hlists, by rw [hpool]; exact hshort, fun g hg => by rw [segAt_congr hpool]; exact howner g hg⟩

theorem handOn_segAt_other {g : Nat} (hg : g ∉ s.segsOf p) : (handOn p d s).segAt g = s.segAt g := by
  rw [segAt_congr (handOn_pool s p d)]
  exact cancel_other (s.heard p d) p d g hg

/-- Only an ADAPTING arrival changes coefficients (R67). -/
theorem handOn_pool_stands (hp : p < 16) (h : ((handOn p d s).ecAt p).state ≠ .adapting) : (handOn p d s).pool = s.pool := by
  rw [handOn_ecAt, if_pos ⟨rfl, hp⟩] at h
  rw [handOn_pool]
  by_cases hup : (s.linkAt p).state = .up
  · by_cases hnil : s.segsOf p = []
    · rw [cancel_empty (s.heard p d) p d hup hnil]
      rfl
    · rw [if_neg (not_or.2 ⟨not_not.2 hup, hnil⟩)] at h
      rw [cancel_running (s.heard p d) p d hup hnil, if_neg (c := ((s.heard p d).judged p d).state = .adapting) h]
      rfl
  · rw [cancel_down (s.heard p d) p d hup]
    rfl

/-- In an ADAPTING arrival the segments of the position take the update (R67). -/
theorem handOn_adapting (hp : p < 16) (h : ((handOn p d s).ecAt p).state = .adapting) :
    s.segsOf p ≠ [] ∧ (handOn p d s).ecAt p = s.judged p d ∧ ∃ u, (∀ g, u.segAt g = s.segAt g) ∧
      (handOn p d s).pool = (updateSegs (s.gainAt p d) (s.ecAt p).history 0 (s.segsOf p) u).pool := by
  rw [handOn_ecAt, if_pos ⟨rfl, hp⟩] at h ⊢
  by_cases hoff : (s.linkAt p).state ≠ .up ∨ s.segsOf p = []
  · rw [if_pos hoff] at h
    cases h
  · rw [if_neg hoff] at h ⊢
    obtain ⟨hup, hsegs⟩ := not_or.1 hoff
    refine ⟨hsegs, rfl, (s.heard p d).modEc p (fun _ => s.judged p d), fun _ => rfl, ?_⟩
    rw [handOn_pool, cancel_running (s.heard p d) p d (not_not.1 hup) hsegs,
      if_pos (c := ((s.heard p d).judged p d).state = .adapting) h]
    rfl

end

/-- The record of a running arrival, by the tests of R64 in their order. -/
theorem judged_eq (s : State) (p : Nat) (d : Int) : s.judged p d =
    let c := s.ecAt p
    let running : Canceller := { c with power := s.powerAt p, window := 32 * (s.segsOf p).length }
    if c.freeze then { running with state := .frozen }
    else if peakOf (s.window p) < 64 then { running with state := .quietRef }
    else if peakOf (s.window p) < d.natAbs * 2 ^ c.shift then { running with state := .doubleTalk, hangover := 240 }
    else if 0 < c.hangover then { running with state := .doubleTalk, hangover := c.hangover - 1 }
    else { running with state := .adapting } := by
  unfold State.judged Canceller.judge
  dsimp only
  split_ifs <;> rfl

/-! ### The word of the port that is next (R154) -/

theorem exec_headsetWordArrival (p : Fin 16) (w : BitVec 19) {s : State} (h : s.words = p.val) :
    exec (.headsetWordArrival p w) s = .next ((headsetWord p.val w s).setWords (p.val + 1)) := by
  refine congrArg Host.Outcome.next ?_
  rcases headsetWordArrival_cases p.val w s with ⟨hlt, _⟩ | ⟨_, heq⟩
  · omega
  · rw [heq, h, Nat.sub_self]
    rfl

theorem goodWord_up {p : Nat} {s : State} (d : Int) (b : Bool) (hup : (s.linkAt p).state = .up) :
    goodWord p d b s = handOn p d (debounce p b (s.modLink p (fun l => { l with badRun := 0, held := d }))) := by
  simp only [goodWord, hup]

theorem debounce_stable {p : Nat} {b : Bool} {s : State} (h : b = (s.linkAt p).stable) :
    debounce p b s = s.modLink p (fun l => { l with change := 0 }) := if_pos h

theorem modLink_modLink (p : Nat) (f g : Link → Link) (s : State) :
    (s.modLink p f).modLink p g = s.modLink p (fun l => g (f l)) := by
  refine congrArg (fun l => { s with link := l }) (tab_ext _ _ fun q _ => ?_)
  show ((s.modLink p f).modLink p g).linkAt q = (s.modLink p (fun l => g (f l))).linkAt q
  simp only [State.modLink_linkAt]
  split
  next hpq => rw [if_pos ⟨trivial, hpq.2⟩]
  next => rfl

/-- The link record when a good word with the stable button level has come at a link in UP (R159, R163). -/
def Link.steady (d : Int) (l : Link) : Link := { l with badRun := 0, held := d, change := 0 }

/-- A good word with the stable button level at a link in UP hands on its sample (R162, R163). -/
theorem goodWord_steady {p : Nat} {b : Bool} {s : State} (d : Int) (hp : p < 16) (hup : (s.linkAt p).state = .up)
    (hstable : b = (s.linkAt p).stable) : goodWord p d b s = handOn p d (s.modLink p (Link.steady d)) := by
  have hsame : b = ((s.modLink p (fun l => { l with badRun := 0, held := d })).linkAt p).stable := by
    rw [State.modLink_linkAt, if_pos ⟨rfl, hp⟩]
    exact hstable
  rw [goodWord_up d b hup, debounce_stable hsame, modLink_modLink]
  rfl

theorem headsetWord_steady {p : Nat} {w : BitVec 19} {s : State} (hp : p < 16) (hgood : wordGood w = true)
    (hup : (s.linkAt p).state = .up) (hstable : inboundButton w = (s.linkAt p).stable) :
    headsetWord p w s = handOn p (inboundSample w) (s.modLink p (Link.steady (inboundSample w))) :=
  (if_pos hgood).trans (goodWord_steady _ hp hup hstable)

end Sys2Proof.Machine

open Sys2Proof Sys2Proof.Machine

/-- Settles O23: the word hands its sample on, and the canceller and the suppressor do their work on it. -/
theorem arrivalsAreCancelledAndJudged : Obligations.ArrivalsAreCancelledAndJudged := by
  intro p w s hwords hgood hup hstable c l d len xs taps e peak power judged
  have hvup : ((s.modLink p (Link.steady d)).linkAt p).state = .up := by
    rw [State.modLink_linkAt, if_pos ⟨rfl, p.isLt⟩]
    exact hup
  have hempty : len = 0 ↔ s.segsOf p = [] := by simp [len]
  have hjudged : (handOn p d (s.modLink p (Link.steady d))).ecAt p = judged := by
    rw [handOn_ecAt, if_pos ⟨rfl, p.isLt⟩, hvup]
    by_cases hnil : s.segsOf p = []
    · exact (if_pos (.inr hnil)).trans (if_pos (hempty.2 hnil)).symm
    · exact ((if_neg (not_or.2 ⟨not_not.2 rfl, hnil⟩)).trans (judged_eq s p d)).trans
        (if_neg (mt hempty.1 hnil)).symm
  have he : (s.modLink p (Link.steady d)).handedOn p d = e := by
    rw [handedOn_up _ p d hvup]
    by_cases hnil : s.segsOf p = []
    · exact (if_pos hnil).trans (if_pos (hempty.2 hnil)).symm
    · exact (if_neg hnil).trans (if_neg (mt hempty.1 hnil)).symm
  have hstep := exec_headsetWordArrival p w hwords
  rw [headsetWord_steady p.isLt hgood hup hstable] at hstep
  refine ⟨_, hstep, hjudged, ?_, ?_, fun q _ hne => ⟨?_, ?_, ?_⟩, fun hother => ?_, ?_⟩
  · rw [State.setWords_mixAt, handOn_mixAt, if_pos ⟨rfl, p.isLt⟩, he]
    rfl
  · rw [State.setWords_levAt, handOn_levAt, if_pos ⟨rfl, p.isLt⟩, he, hjudged]
    rfl
  · exact (handOn_ecAt _ p d q).trans (if_neg fun h => hne h.1.symm)
  · exact (handOn_mixAt _ p d q).trans (if_neg fun h => hne h.1.symm)
  · exact (handOn_levAt _ p d q).trans (if_neg fun h => hne h.1.symm)
  · exact handOn_pool_stands _ p d p.isLt (by rwa [hjudged])
  · rw [handOn_eq]
    rfl

end

section
/-! SUPPORT. An update of the coefficients, segment by segment, is one update of them all in the order of the list, and the
statement (R60, R67, R68). -/

namespace Sys2Proof.Machine

/-- The update of the segments of a list, read in its order: tap by tap, each over its own history value (R60, R67). -/
theorem updateSegs_coeffs (gain : Int) (hist : List Int) (i : Nat) (l : List Nat) (s : State) (hnodup : l.Nodup)
    (hrange : ∀ g ∈ l, g < 64) (hseg : ∀ g, g < 64 → (s.segAt g).coeffs.length = 32)
    (hlen : 32 * (i + l.length) ≤ hist.length) :
    l.flatMap (fun g => ((updateSegs gain hist i l s).segAt g).coeffs) =
      updateTaps gain (l.flatMap (fun g => (s.segAt g).coeffs)) ((hist.drop (32 * i)).take (32 * l.length)) := by
  induction l generalizing i s with
  | nil => rfl
  | cons a l ih =>
    obtain ⟨ha, hnodup'⟩ := List.nodup_cons.1 hnodup
    rw [List.length_cons] at hlen
    have ha64 : a < 64 := hrange a List.mem_cons_self
    have hpart : (historyPart hist i).length = 32 := historyPart_length hist (by omega)
    generalize hu : s.modSeg a (fun x => { x with coeffs := updateTaps gain x.coeffs (historyPart hist i) }) = u
    have hhead : (u.segAt a).coeffs = updateTaps gain (s.segAt a).coeffs (historyPart hist i) := by
      rw [← hu, State.modSeg_segAt, if_pos ⟨rfl, ha64⟩]
    have htail (g : Nat) (hg : g ∈ l) : (u.segAt g).coeffs = (s.segAt g).coeffs := by
      rw [← hu, State.modSeg_segAt, if_neg (fun h : a = g ∧ a < 64 => ha (h.1 ▸ hg))]
    have hlengths (g : Nat) (hg : g < 64) : (u.segAt g).coeffs.length = 32 := by
      rw [← hu, State.modSeg_segAt]
      split
      · simp [updateTaps, hpart, hseg a ha64]
      · exact hseg g hg
    have hnext := ih (i + 1) u hnodup' (fun g hg => hrange g (List.mem_cons_of_mem a hg)) hlengths (by omega)
    have hlist : l.flatMap (fun g => (u.segAt g).coeffs) = l.flatMap (fun g => (s.segAt g).coeffs) :=
      List.flatMap_congr htail
    have hhistory : (hist.drop (32 * i)).take (32 * (l.length + 1)) =
        historyPart hist i ++ (hist.drop (32 * (i + 1))).take (32 * l.length) := by
      rw [Nat.mul_succ 32 l.length, Nat.add_comm, List.take_add, List.drop_drop, Nat.mul_succ]
      rfl
    have hupdate : updateSegs gain hist i (a :: l) s = updateSegs gain hist (i + 1) l u := by rw [← hu]; rfl
    rw [hupdate, List.flatMap_cons, List.flatMap_cons, updateSegs_other _ _ _ _ _ _ ha, hhead, hnext, hlist, List.length_cons,
      hhistory]
    exact (List.zipWith_append (by rw [hseg a ha64, hpart])).symm

end Sys2Proof.Machine

open Sys2Proof Sys2Proof.Machine

/-- Settles O24: an ADAPTING arrival is the update of the position's segments in the order of its list. -/
theorem adaptingArrivalsMoveEveryTap : Obligations.AdaptingArrivalsMoveEveryTap := by
  intro p w s t hpool hmost hcancel hwords hgood hup hstable hstep hadapting len xs taps e gain
  have harrived := exec_headsetWordArrival p w hwords
  rw [hstep, headsetWord_steady p.isLt hgood hup hstable] at harrived
  cases harrived
  have howners := handOn_owners (s.modLink p (Link.steady (inboundSample w))) p (inboundSample w)
  obtain ⟨_, hrecord, u, hu, hupdated⟩ :=
    handOn_adapting (s.modLink p (Link.steady (inboundSample w))) p (inboundSample w) p.isLt hadapting
  obtain ⟨hlists, _⟩ := hpool
  obtain ⟨hnodup, hrange⟩ := hlists p p.isLt
  obtain ⟨hranges, hsegs⟩ := hcancel
  obtain ⟨hhistory, _⟩ := hranges p p.isLt
  obtain ⟨_, _, howner⟩ := id howners
  refine ⟨?_, fun g _ hg => ?_, howner, fun q _ => howners.segsOf q⟩
  · have hmoved := updateSegs_coeffs gain (s.ecAt p).history 0 (s.segsOf p) u hnodup hrange
      (fun g hg => by rw [hu]; exact (hsegs g hg).1) (by omega)
    have hgain : gain = (s.modLink p (Link.steady (inboundSample w))).gainAt p (inboundSample w) := by
      have hscale : (2 : Int) ^ 26 = 67108864 := by norm_num
      simp only [gain, State.setWords_ecAt, hrecord, hscale]
      rfl
    have hold : (s.segsOf p).flatMap (fun g => (u.segAt g).coeffs) = s.coeffs p :=
      List.flatMap_congr fun g _ => by rw [hu]; rfl
    rw [hold, hgain] at hmoved
    rw [hgain, State.coeffs, State.setWords_segsOf, howners.segsOf]
    refine Eq.trans (List.flatMap_congr fun g _ => ?_) hmoved
    rw [State.setWords_segAt, segAt_congr hupdated]
    rfl
  · exact handOn_segAt_other _ p (inboundSample w) hg

end

section
/-! SUPPORT. What a headset word does before its sample is handed on: the link record, the button, and the segments of a link
that comes UP or leaves UP; and that all this is its own position's (R75, R86 to R88, R156, R158 to R164). -/

namespace Sys2Proof.Machine

/-! ### The pool's operations change the pool and MAINT's notices alone -/

/-- `t` is `s` but for the pool and MAINT's notices. -/
def PoolAlone (s t : State) : Prop := t = { s with pool := t.pool, maintQ := t.maintQ }

theorem PoolAlone.refl (s : State) : PoolAlone s s := rfl

theorem PoolAlone.trans {s t u : State} (hst : PoolAlone s t) (htu : PoolAlone t u) : PoolAlone s u :=
  Eq.trans htu (congrArg (fun v : State => { v with pool := u.pool, maintQ := u.maintQ }) hst)

theorem grantUpTo_alone (p n : Nat) (s : State) : PoolAlone s (grantUpTo p n s) := by
  induction n generalizing s with
  | zero => exact .refl s
  | succ n ih =>
    unfold grantUpTo
    split
    · exact .refl s
    next g _ =>
      have hgrant : PoolAlone s (grantSeg p g s) := rfl
      exact hgrant.trans (ih _)

theorem serveHead_alone (p g : Nat) (rest : List Nat) (s : State) : PoolAlone s (serveHead p g rest s) := by
  unfold serveHead
  split <;> rfl

theorem serveShortfall_alone (n : Nat) (s : State) : PoolAlone s (serveShortfall n s) := by
  induction n generalizing s with
  | zero => exact .refl s
  | succ n ih =>
    cases hshort : s.pool.short with
    | nil => rw [serveShortfall_stop _ s (.inl hshort)]; exact .refl s
    | cons p rest =>
      cases hfree : s.freeSegs with
      | nil => rw [serveShortfall_stop _ s (.inr hfree)]; exact .refl s
      | cons g frees =>
        rw [serveShortfall_cons n s hshort hfree]
        exact (serveHead_alone p g rest s).trans (ih _)

theorem freeTail_alone (p n : Nat) (s : State) : PoolAlone s (freeTail p n s) := by
  induction n generalizing s with
  | zero => exact .refl s
  | succ n ih =>
    unfold freeTail
    split
    · exact .refl s
    next g _ =>
      have hfreed : PoolAlone s (freeSegment g (s.modSegs p List.dropLast)) := rfl
      exact hfreed.trans (ih _)

theorem servePosition_alone (p : Nat) (s : State) : PoolAlone s (servePosition p s) := by
  have hgrants := grantUpTo_alone p ((s.ecAt p).request - s.granted p) s
  unfold servePosition
  dsimp only
  split
  · split
    · exact hgrants.trans rfl
    · exact hgrants.trans rfl
  · exact hgrants.trans rfl

/-- TAP_SHORTFALL for `p` with `n` segments (R91). -/
def State.shortfallNotice (s : State) (p n : Nat) : Notice :=
  { kind := .tapShortfall, position := some p, subject := none, cause := none,
    value := some (256 * (s.ecAt p).request + n), stamp := s.tmn.blockCount }

theorem postShortfall_maintQ (p : Nat) (s : State) (l : List Nat) :
    (postShortfall p s).maintQ = s.maintQ.push (s.shortfallNotice p (s.granted p)) s.resetHeld ∧
      (postShortfall p (s.setShort l)).maintQ = (postShortfall p s).maintQ := by
  rw [State.shortfallNotice, Nat.mul_comm]
  exact ⟨rfl, rfl⟩

/-- MAINT's notices after a position has been served: TAP_SHORTFALL when it stays short (R83, R86). -/
theorem servePosition_maintQ {p : Nat} (hp : p < 16) (s : State) : (servePosition p s).maintQ =
    if s.granted p + (s.grants p).length < (s.ecAt p).request then
      s.maintQ.push (s.shortfallNotice p (s.granted p + (s.grants p).length)) s.resetHeld
    else s.maintQ := by
  have halone := grantUpTo_alone p ((s.ecAt p).request - s.granted p) s
  have hmaint : (grantUpTo p ((s.ecAt p).request - s.granted p) s).maintQ = s.maintQ := by simp
  have hgranted : (grantUpTo p ((s.ecAt p).request - s.granted p) s).granted p =
      s.granted p + (s.grants p).length := by
    rw [State.granted, grantUpTo_segsOf hp, if_pos rfl, List.length_append]
    rfl
  unfold servePosition
  dsimp only
  generalize grantUpTo p ((s.ecAt p).request - s.granted p) s = u at *
  have hec : u.ecAt p = s.ecAt p := by rw [halone]; rfl
  have hpost : (postShortfall p u).maintQ =
      s.maintQ.push (s.shortfallNotice p (s.granted p + (s.grants p).length)) s.resetHeld := by
    rw [(postShortfall_maintQ p u []).1, hmaint, hgranted, halone]
    rfl
  rw [hec, hgranted]
  split
  · split
    · exact hpost
    · exact (postShortfall_maintQ p u _).2.trans hpost
  · exact hmaint

/-! ### A link that comes UP (R75, R86, R160) -/

section
variable {p : Nat} (hp : p < 16) (d : Int) (b : Bool) (s : State)

/-- The link record of a link that has come UP (R160). -/
def Link.raised (d : Int) (b : Bool) (l : Link) : Link :=
  { l with state := .up, goodRun := 0, badRun := 0, held := d, stable := b, change := 0 }

/-- The state when the canceller of a link that comes UP has been zeroed, before it is served (R75). -/
def State.raisedZeroed (s : State) (p : Nat) (d : Int) (b : Bool) : State := zeroCanceller p (s.modLink p (Link.raised d b))

theorem linkUp_eq_post : linkUp p d b s =
    (servePosition p (s.raisedZeroed p d b)).post .call .headsetUp (some p) none none none := rfl

theorem raisedZeroed_owners : OwnersStand s (s.raisedZeroed p d b) := zeroCanceller_owners p (s.modLink p (Link.raised d b))

theorem raisedZeroed_ecAt (q : Nat) : (s.raisedZeroed p d b).ecAt q =
    if p = q ∧ p < 16 then { s.ecAt p with hangover := 0 } else s.ecAt q := zeroCanceller_ecAt ..

theorem raisedZeroed_eq : s.raisedZeroed p d b =
    { s with link := (s.modLink p (Link.raised d b)).link, ec := (s.raisedZeroed p d b).ec,
             pool := (s.raisedZeroed p d b).pool } := zeroCanceller_eq p (s.modLink p (Link.raised d b))

include hp in
/-- The zeroing changes neither what `p` asks for nor what it will be granted. -/
theorem raisedZeroed_demand : ((s.raisedZeroed p d b).ecAt p).request = (s.ecAt p).request ∧
    (s.raisedZeroed p d b).granted p = s.granted p ∧ (s.raisedZeroed p d b).grants p = s.grants p := by
  have howners := raisedZeroed_owners (p := p) d b s
  have hrequest : ((s.raisedZeroed p d b).ecAt p).request = (s.ecAt p).request := by
    rw [raisedZeroed_ecAt, if_pos ⟨rfl, hp⟩]
  have hgranted : (s.raisedZeroed p d b).granted p = s.granted p := congrArg List.length (howners.segsOf p)
  exact ⟨hrequest, hgranted, by rw [State.grants, State.grants, hrequest, hgranted, howners.freeSegs]⟩

theorem linkUp_eq : linkUp p d b s =
    { s with link := (linkUp p d b s).link, ec := (linkUp p d b s).ec, pool := (linkUp p d b s).pool,
             callQ := (linkUp p d b s).callQ, maintQ := (linkUp p d b s).maintQ } := by
  have halone := servePosition_alone p (s.raisedZeroed p d b)
  rw [linkUp_eq_post]
  generalize servePosition p (s.raisedZeroed p d b) = u at *
  rw [halone, raisedZeroed_eq]
  rfl

theorem linkUp_linkAt (q : Nat) : (linkUp p d b s).linkAt q =
    if p = q ∧ p < 16 then (s.linkAt p).raised d b else s.linkAt q := by
  rw [linkAt_congr (linkUp_link p d b s), State.modLink_linkAt]
  rfl

theorem linkUp_ecAt (q : Nat) : (linkUp p d b s).ecAt q =
    if p = q ∧ p < 16 then { s.ecAt p with hangover := 0 } else s.ecAt q := by
  have hec : (servePosition p (s.raisedZeroed p d b)).ec = (s.raisedZeroed p d b).ec := by simp
  rw [linkUp_eq_post, State.post_ecAt, ecAt_congr hec, raisedZeroed_ecAt]

/-- HEADSET_UP goes to CALL (R160). -/
theorem linkUp_callQ : (linkUp p d b s).callQ =
    s.callQ.push { kind := .headsetUp, position := some p, subject := none, cause := none, value := none,
                   stamp := s.tmn.blockCount } s.resetHeld := by
  have halone := servePosition_alone p (s.raisedZeroed p d b)
  rw [linkUp_eq_post]
  generalize servePosition p (s.raisedZeroed p d b) = u at *
  rw [halone, raisedZeroed_eq]
  rfl

include hp

theorem linkUp_segsOf (q : Nat) :
    (linkUp p d b s).segsOf q = if q = p then s.segsOf p ++ s.grants p else s.segsOf q := by
  have howners := raisedZeroed_owners (p := p) d b s
  obtain ⟨_, _, hgrants⟩ := raisedZeroed_demand hp d b s
  rw [linkUp_eq_post, State.post_segsOf, servePosition_segsOf hp, howners.segsOf, howners.segsOf, hgrants]

/-- The segments of a link that has come UP hold zeros, whether held before or granted now (R75, R80, R86). -/
theorem linkUp_segAt (h : PoolLaw s) {g : Nat} (hg : g < 64) : (linkUp p d b s).segAt g =
    if g ∈ s.segsOf p then { s.segAt g with coeffs := List.replicate 32 0 }
    else if g ∈ s.grants p then { owner := some p, coeffs := List.replicate 32 0 }
    else s.segAt g := by
  obtain ⟨_, _, hgrants⟩ := raisedZeroed_demand hp d b s
  have hzeroed : (s.raisedZeroed p d b).segAt g =
      if g ∈ s.segsOf p then { s.segAt g with coeffs := Segment.free.coeffs } else s.segAt g :=
    zeroCanceller_segAt p (s.modLink p (Link.raised d b)) hg
  obtain ⟨_, hsegs, _⟩ := h
  obtain ⟨hown, hzero⟩ := hsegs g hg
  rw [linkUp_eq_post, State.post_segAt, servePosition_segAt, hgrants, hzeroed]
  by_cases hgrant : g ∈ s.grants p
  · have hfree : (s.segAt g).owner = none := ((mem_freeSegs s g).1 (List.mem_of_mem_take hgrant)).2
    have hnot : g ∉ s.segsOf p := fun hmem => by
      have := (hown p).2 ⟨hp, hmem⟩
      rw [hfree] at this
      cases this
    rw [if_pos hgrant, if_neg hnot, if_neg hnot, if_pos hgrant]
    exact congrArg (fun cs => ({ owner := some p, coeffs := cs } : Segment)) (hzero hfree)
  · rw [if_neg hgrant, if_neg hgrant]
    rfl

/-- The shortfall list and MAINT's notices when a link has come UP (R86). -/
theorem linkUp_shortfall :
    (linkUp p d b s).pool.short =
        (if s.granted p + (s.grants p).length < (s.ecAt p).request then
          (if p ∈ s.pool.short then s.pool.short else s.pool.short ++ [p])
        else s.pool.short.erase p) ∧
      (linkUp p d b s).maintQ =
        if s.granted p + (s.grants p).length < (s.ecAt p).request then
          s.maintQ.push (s.shortfallNotice p (s.granted p + (s.grants p).length)) s.resetHeld
        else s.maintQ := by
  obtain ⟨hrequest, hgranted, hgrants⟩ := raisedZeroed_demand hp d b s
  obtain ⟨_, hshort, _⟩ := raisedZeroed_owners (p := p) d b s
  have hnotice (n : Nat) : (s.raisedZeroed p d b).shortfallNotice p n = s.shortfallNotice p n := by
    rw [State.shortfallNotice, hrequest, raisedZeroed_eq]
    rfl
  have hfields : (s.raisedZeroed p d b).maintQ = s.maintQ ∧ (s.raisedZeroed p d b).resetHeld = s.resetHeld := by
    rw [raisedZeroed_eq]
    exact ⟨rfl, rfl⟩
  obtain ⟨hmaint, hheld⟩ := hfields
  have hpost : (linkUp p d b s).maintQ = (servePosition p (s.raisedZeroed p d b)).maintQ := rfl
  rw [hpost, servePosition_maintQ hp, linkUp_eq_post, State.post_pool, servePosition_short hp, hrequest, hgranted, hgrants,
    hshort, hnotice, hmaint, hheld]
  exact ⟨rfl, rfl⟩

end

/-! ### A link that leaves UP (R87, R161) -/

section
variable {p : Nat} (hp : p < 16) (s : State)

/-- The link record of a link that has left UP (R161). -/
def Link.lowered (l : Link) : Link :=
  { l with state := .down, goodRun := 0, badRun := 0, held := 0, stable := false, change := 0 }

/-- The state when a link that leaves UP has given its segments back, before the waiting positions are served (R87). -/
def State.givenBack (s : State) (p : Nat) : State :=
  freeTail p (s.granted p) ((s.modLink p Link.lowered).setShort (s.pool.short.erase p))

theorem linkDown_eq_post : linkDown p s =
    (((serveShort (s.givenBack p)).modEc p (fun c => { c with state := .off })).modPos p
      (fun x => { x with btnMute := false, effMute := x.cmdMute })).post .call .headsetDown (some p) none none none := by
  have hremute : (fun x : Position => Position.remute { x with btnMute := false }) =
      fun x => { x with btnMute := false, effMute := x.cmdMute } := funext fun x => by simp [Position.remute]
  rw [← hremute]
  rfl

theorem givenBack_link : (s.givenBack p).link = (s.modLink p Link.lowered).link := by simp [State.givenBack]

theorem givenBack_linkAt (q : Nat) : (s.givenBack p).linkAt q =
    if p = q ∧ p < 16 then (s.linkAt p).lowered else s.linkAt q := by
  rw [linkAt_congr (givenBack_link s), State.modLink_linkAt]

theorem givenBack_eq : s.givenBack p = { s with link := (s.givenBack p).link, pool := (s.givenBack p).pool } := by
  have halone := freeTail_alone p (s.granted p) ((s.modLink p Link.lowered).setShort (s.pool.short.erase p))
  have hmaint : (s.givenBack p).maintQ = s.maintQ := by simp [State.givenBack]
  calc s.givenBack p
    _ = { s.modLink p Link.lowered with pool := (s.givenBack p).pool, maintQ := (s.givenBack p).maintQ } := halone
    _ = { s with link := (s.givenBack p).link, pool := (s.givenBack p).pool } := by rw [hmaint, givenBack_link]; rfl

include hp in
/-- All the segments of `p` are free, with zeros, and `p` waits for none (R87). -/
theorem givenBack_pool :
    (s.givenBack p).segsOf p = [] ∧ (∀ q, q ≠ p → (s.givenBack p).segsOf q = s.segsOf q) ∧
      (∀ g, g < 64 → (s.givenBack p).segAt g = if g ∈ s.segsOf p then Segment.free else s.segAt g) ∧
      (s.givenBack p).pool.short = s.pool.short.erase p := by
  obtain ⟨hown, hother, hseg, hshort⟩ :=
    freeTail_spec hp (s.granted p) ((s.modLink p Link.lowered).setShort (s.pool.short.erase p))
  have hnone : ((s.modLink p Link.lowered).setShort (s.pool.short.erase p)).segsOf p = s.segsOf p := rfl
  have hall : (s.segsOf p).length - s.granted p = 0 := Nat.sub_self _
  rw [hnone, hall] at hown hseg
  exact ⟨hown, hother, hseg, hshort⟩

theorem linkDown_eq : linkDown p s =
    { s with link := (linkDown p s).link, pos := (linkDown p s).pos, ec := (linkDown p s).ec, pool := (linkDown p s).pool,
             callQ := (linkDown p s).callQ, maintQ := (linkDown p s).maintQ } := by
  have halone : PoolAlone (s.givenBack p) (serveShort (s.givenBack p)) := serveShortfall_alone 64 _
  rw [linkDown_eq_post]
  generalize serveShort (s.givenBack p) = u at *
  rw [halone, givenBack_eq]
  rfl

theorem linkDown_linkAt (q : Nat) : (linkDown p s).linkAt q =
    if p = q ∧ p < 16 then (s.linkAt p).lowered else s.linkAt q := by
  rw [linkAt_congr (linkDown_link p s), State.modLink_linkAt]
  rfl

theorem linkDown_posAt (q : Nat) : (linkDown p s).posAt q =
    if p = q ∧ p < 16 then { s.posAt p with btnMute := false, effMute := (s.posAt p).cmdMute } else s.posAt q := by
  have hpos : (serveShort (s.givenBack p)).pos = s.pos := by simp [State.givenBack]
  rw [linkDown_eq_post, State.post_posAt, State.modPos_posAt, State.modEc_posAt, State.modEc_posAt, posAt_congr hpos,
    posAt_congr hpos]

theorem linkDown_ecAt (q : Nat) : (linkDown p s).ecAt q =
    if p = q ∧ p < 16 then { s.ecAt p with state := .off } else s.ecAt q := by
  have hec : (serveShort (s.givenBack p)).ec = s.ec := by simp [State.givenBack]
  rw [linkDown_eq_post, State.post_ecAt, State.modPos_ecAt, State.modEc_ecAt, ecAt_congr hec, ecAt_congr hec]

/-- HEADSET_DOWN goes to CALL (R161). -/
theorem linkDown_callQ : (linkDown p s).callQ =
    s.callQ.push { kind := .headsetDown, position := some p, subject := none, cause := none, value := none,
                   stamp := s.tmn.blockCount } s.resetHeld := by
  have halone : PoolAlone (s.givenBack p) (serveShort (s.givenBack p)) := serveShortfall_alone 64 _
  rw [linkDown_eq_post]
  generalize serveShort (s.givenBack p) = u at *
  rw [halone, givenBack_eq]
  rfl

include hp in
/-- With nobody else waiting, `p` is left without a segment (R87). -/
theorem linkDown_segsOf (hshort : s.pool.short = []) : (linkDown p s).segsOf p = [] := by
  obtain ⟨hown, _, _, hlist⟩ := givenBack_pool hp s
  rw [hshort, List.erase_nil] at hlist
  rw [linkDown_eq_post, State.post_segsOf, State.modPos_segsOf, State.modEc_segsOf]
  exact (congrArg (fun t : State => t.segsOf p) (serveShortfall_stop 64 _ (.inl hlist))).trans hown

end

/-! ### What a word does is its own position's -/

/-- `v` is `s` but for the link, the record and the canceller of `p`, the pool and the notices. -/
def OwnWord (p : Nat) (s v : State) : Prop :=
  v = { s with link := v.link, pos := v.pos, ec := v.ec, pool := v.pool, callQ := v.callQ, maintQ := v.maintQ } ∧
    ∀ q, q ≠ p → v.linkAt q = s.linkAt q ∧ v.ecAt q = s.ecAt q ∧ v.posAt q = s.posAt q

theorem OwnWord.refl (p : Nat) (s : State) : OwnWord p s s := ⟨rfl, fun _ _ => ⟨rfl, rfl, rfl⟩⟩

theorem OwnWord.modLink (p : Nat) (f : Link → Link) (s : State) : OwnWord p s (s.modLink p f) :=
  ⟨rfl, fun q hne => ⟨by rw [State.modLink_linkAt, if_neg fun h => hne h.1.symm], rfl, rfl⟩⟩

theorem OwnWord.linkUp (p : Nat) (d : Int) (b : Bool) (s : State) : OwnWord p s (linkUp p d b s) := by
  have heq := linkUp_eq (p := p) d b s
  refine ⟨?_, fun q hne => ⟨?_, ?_, ?_⟩⟩
  · have hpos : (Machine.linkUp p d b s).pos = s.pos := by simp
    rw [hpos]
    exact heq
  · rw [linkUp_linkAt, if_neg fun h => hne h.1.symm]
  · rw [linkUp_ecAt, if_neg fun h => hne h.1.symm]
  · exact posAt_congr (by simp) q

theorem OwnWord.linkDown (p : Nat) (s : State) : OwnWord p s (linkDown p s) := by
  refine ⟨linkDown_eq s, fun q hne => ⟨?_, ?_, ?_⟩⟩
  · rw [linkDown_linkAt, if_neg fun h => hne h.1.symm]
  · rw [linkDown_ecAt, if_neg fun h => hne h.1.symm]
  · rw [linkDown_posAt, if_neg fun h => hne h.1.symm]

/-! ### The button (R163, R164) -/

/-- The button record that a press leaves (R17, R164). -/
theorem pressButton_posAt (p : Nat) (s : State) (q : Nat) : (pressButton p s).posAt q =
    if p = q ∧ p < 16 then
      { s.posAt p with btnMute := !(s.posAt p).btnMute, effMute := (s.posAt p).cmdMute || !(s.posAt p).btnMute }
    else s.posAt q := by
  rw [pressButton, State.post_posAt, State.modPos_posAt]
  rfl

theorem pressButton_callQ {p : Nat} (hp : p < 16) (s : State) : (pressButton p s).callQ =
    s.callQ.push { kind := .buttonMute, position := some p, subject := none, cause := none,
                   value := some (if (s.posAt p).btnMute then 0 else 1), stamp := s.tmn.blockCount } s.resetHeld := by
  have hvalue : bit ((s.modPos p (fun x => Position.remute { x with btnMute := !x.btnMute })).posAt p).btnMute =
      if (s.posAt p).btnMute then 0 else 1 := by
    rw [State.modPos_posAt, if_pos ⟨rfl, hp⟩]
    show bit (!(s.posAt p).btnMute) = _
    cases (s.posAt p).btnMute <;> rfl
  rw [pressButton, hvalue]
  rfl

theorem OwnWord.pressButton (p : Nat) (f : Link → Link) (s : State) : OwnWord p s (pressButton p (s.modLink p f)) := by
  refine ⟨rfl, fun q hne => ⟨?_, rfl, ?_⟩⟩
  · exact (State.modLink_linkAt ..).trans (if_neg fun h => hne h.1.symm)
  · exact (pressButton_posAt ..).trans (if_neg fun h => hne h.1.symm)

/-! ### The word, case by case -/

section
variable {p : Nat} {s : State} (d : Int) (b : Bool)

theorem goodWord_down (h : (s.linkAt p).state = .down) :
    goodWord p d b s = handOn p 0 (s.modLink p (fun l => { l with state := .probing, goodRun := 1 })) := by
  simp only [goodWord, h]

theorem goodWord_probing (h : (s.linkAt p).state = .probing) (hrun : (s.linkAt p).goodRun < 63) :
    goodWord p d b s = handOn p 0 (s.modLink p (fun l => { l with goodRun := l.goodRun + 1 })) := by
  have hshort : ¬ Config.upRun ≤ (s.linkAt p).goodRun + 1 := by
    show ¬ 64 ≤ _
    omega
  simp only [goodWord, h, if_neg hshort]

theorem goodWord_raises (h : (s.linkAt p).state = .probing) (hrun : 63 ≤ (s.linkAt p).goodRun) :
    goodWord p d b s = handOn p d (linkUp p d b s) := by
  have hfull : Config.upRun ≤ (s.linkAt p).goodRun + 1 := by
    show 64 ≤ _
    omega
  simp only [goodWord, h, if_pos hfull]

/-- A changed button level at a link in UP: its run is counted, and at 160 words it is the stable level, which is a press
when the button is down (R163, R164). -/
theorem goodWord_button (hp : p < 16) (hup : (s.linkAt p).state = .up) (hb : b ≠ (s.linkAt p).stable) :
    goodWord p d b s = handOn p d
      (if (s.linkAt p).change < 159 then s.modLink p (fun l => { l with badRun := 0, held := d, change := l.change + 1 })
       else if b then pressButton p (s.modLink p (fun l => { l with badRun := 0, held := d, stable := b, change := 0 }))
       else s.modLink p (fun l => { l with badRun := 0, held := d, stable := b, change := 0 })) := by
  have hlink : (s.modLink p (fun l => { l with badRun := 0, held := d })).linkAt p =
      { s.linkAt p with badRun := 0, held := d } := by rw [State.modLink_linkAt, if_pos ⟨rfl, hp⟩]
  have hrun : (s.linkAt p).change + 1 < Config.buttonRun ↔ (s.linkAt p).change < 159 := Nat.succ_lt_succ_iff (b := 159)
  rw [goodWord_up d b hup, debounce, hlink]
  simp only [if_neg hb, hrun, modLink_modLink]

theorem badWord_down (h : (s.linkAt p).state = .down) : badWord p s = handOn p 0 s := by simp only [badWord, h]

theorem badWord_probing (h : (s.linkAt p).state = .probing) :
    badWord p s = handOn p 0 (s.modLink p (fun l => { l with state := .down, goodRun := 0 })) := by
  simp only [badWord, h]

theorem badWord_up (h : (s.linkAt p).state = .up) (hrun : (s.linkAt p).badRun < 7) :
    badWord p s = handOn p (s.linkAt p).held (s.modLink p (fun l => { l with badRun := l.badRun + 1 })) := by
  have hshort : ¬ Config.downRun ≤ (s.linkAt p).badRun + 1 := by
    show ¬ 8 ≤ _
    omega
  simp only [badWord, h, if_neg hshort]

theorem badWord_lowers (h : (s.linkAt p).state = .up) (hrun : 7 ≤ (s.linkAt p).badRun) :
    badWord p s = handOn p 0 (linkDown p s) := by
  have hfull : Config.downRun ≤ (s.linkAt p).badRun + 1 := by
    show 8 ≤ _
    omega
  simp only [badWord, h, if_pos hfull]

/-- Before its sample is handed on, a good word works on its own position alone. -/
theorem goodWord_own (hp : p < 16) : ∃ x v, goodWord p d b s = handOn p x v ∧ OwnWord p s v := by
  cases hstate : (s.linkAt p).state with
  | down => exact ⟨_, _, goodWord_down d b hstate, .modLink p _ s⟩
  | probing =>
    rcases Nat.lt_or_ge (s.linkAt p).goodRun 63 with hrun | hrun
    · exact ⟨_, _, goodWord_probing d b hstate hrun, .modLink p _ s⟩
    · exact ⟨_, _, goodWord_raises d b hstate hrun, .linkUp p d b s⟩
  | up =>
    by_cases hb : b = (s.linkAt p).stable
    · exact ⟨_, _, goodWord_steady d hp hstate hb, .modLink p _ s⟩
    · refine ⟨_, _, goodWord_button d b hp hstate hb, ?_⟩
      split_ifs
      · exact .modLink p _ s
      · exact .pressButton p _ s
      · exact .modLink p _ s

theorem badWord_own : ∃ x v, badWord p s = handOn p x v ∧ OwnWord p s v := by
  cases hstate : (s.linkAt p).state with
  | down => exact ⟨_, _, badWord_down hstate, .refl p s⟩
  | probing => exact ⟨_, _, badWord_probing hstate, .modLink p _ s⟩
  | up =>
    rcases Nat.lt_or_ge (s.linkAt p).badRun 7 with hrun | hrun
    · exact ⟨_, _, badWord_up hstate hrun, .modLink p _ s⟩
    · exact ⟨_, _, badWord_lowers hstate hrun, .linkDown p s⟩

end

end Sys2Proof.Machine

end

section
/-! SUPPORT. The whole word: what it leaves when its sample has been handed on, and the statement (R154, R156 to R164). -/

namespace Sys2Proof.Machine

/-! ### After the sample has been handed on -/

section
variable {p : Nat} {d : Int} {n : Nat} {s v : State}

theorem wordDone_own (hp : p < 16) : ((handOn p d v).setWords n).linkAt p = v.linkAt p ∧
    (((handOn p d v).setWords n).mixAt p).raw = d ∧ ((handOn p d v).setWords n).callQ = v.callQ ∧
    ((handOn p d v).setWords n).posAt p = v.posAt p := by
  refine ⟨linkAt_congr (by simp) p, ?_, by simp, posAt_congr (by simp) p⟩
  rw [State.setWords_mixAt, handOn_mixAt, if_pos ⟨rfl, hp⟩]

/-- The readings of `p` after a word that has only moved the link record. -/
theorem wordDone_modLink (hp : p < 16) (f : Link → Link) :
    ((handOn p d (s.modLink p f)).setWords n).linkAt p = f (s.linkAt p) ∧
      (((handOn p d (s.modLink p f)).setWords n).mixAt p).raw = d ∧
      ((handOn p d (s.modLink p f)).setWords n).callQ = s.callQ ∧
      ((handOn p d (s.modLink p f)).setWords n).posAt p = s.posAt p := by
  obtain ⟨hlink, hraw, hcallQ, hpos⟩ := wordDone_own (d := d) (n := n) (v := s.modLink p f) hp
  refine ⟨hlink.trans ?_, hraw, hcallQ, hpos⟩
  rw [State.modLink_linkAt, if_pos ⟨rfl, hp⟩]

/-- The readings of `p` after a word that was a debounced press (R164). -/
theorem wordDone_press (hp : p < 16) (f : Link → Link) :
    let t := (handOn p d (pressButton p (s.modLink p f))).setWords n
    t.linkAt p = f (s.linkAt p) ∧ (t.mixAt p).raw = d ∧
      t.posAt p = { s.posAt p with btnMute := !(s.posAt p).btnMute,
                                   effMute := (s.posAt p).cmdMute || !(s.posAt p).btnMute } ∧
      t.callQ = s.callQ.push { kind := .buttonMute, position := some p, subject := none, cause := none,
                               value := some (if (s.posAt p).btnMute then 0 else 1),
                               stamp := s.tmn.blockCount } s.resetHeld := by
  obtain ⟨hlink, hraw, hcallQ, hpos⟩ := wordDone_own (d := d) (n := n) (v := pressButton p (s.modLink p f)) hp
  refine ⟨hlink.trans ?_, hraw, hpos.trans ?_, hcallQ.trans (pressButton_callQ hp _)⟩
  · exact (State.modLink_linkAt ..).trans (if_pos ⟨rfl, hp⟩)
  · exact (pressButton_posAt ..).trans (if_pos ⟨rfl, hp⟩)

theorem OwnWord.handOn_others (h : OwnWord p s v) {q : Nat} (hne : q ≠ p) :
    ((handOn p d v).setWords n).linkAt q = s.linkAt q ∧ ((handOn p d v).setWords n).ecAt q = s.ecAt q ∧
      ((handOn p d v).setWords n).posAt q = s.posAt q ∧ ((handOn p d v).setWords n).mixAt q = s.mixAt q ∧
      ((handOn p d v).setWords n).levAt q = s.levAt q := by
  obtain ⟨heq, hentries⟩ := h
  obtain ⟨hlink, hec, hpos⟩ := hentries q hne
  have hmix : v.mix = s.mix := by rw [heq]
  have hlev : v.lev = s.lev := by rw [heq]
  refine ⟨(linkAt_congr (by simp) q).trans hlink, ?_, (posAt_congr (by simp) q).trans hpos, ?_, ?_⟩
  · rw [State.setWords_ecAt, handOn_ecAt, if_neg (fun h => hne h.1.symm), hec]
  · rw [State.setWords_mixAt, handOn_mixAt, if_neg (fun h => hne h.1.symm), mixAt_congr hmix]
  · rw [State.setWords_levAt, handOn_levAt, if_neg (fun h => hne h.1.symm), levAt_congr hlev]

theorem OwnWord.handOn_eq (h : OwnWord p s v) :
    let t := (handOn p d v).setWords n
    t = { s with link := t.link, pos := t.pos, ec := t.ec, pool := t.pool, mix := t.mix, lev := t.lev, words := n,
                 callQ := t.callQ, maintQ := t.maintQ } := by
  obtain ⟨heq, _⟩ := h
  intro t
  have ht : t = { v with ec := t.ec, mix := t.mix, lev := t.lev, pool := t.pool, words := n } :=
    congrArg (fun u : State => u.setWords n) (Machine.handOn_eq v p d)
  generalize t = u at *
  rw [ht, heq]

end

/-! ### The order of the ports (R154) -/

/-- A port that is passed over has yielded the word of an unattached port. -/
theorem headsetWordArrival_passed {p q : Nat} (w : BitVec 19) {s : State} (hq : q = s.words) (hlt : q < p) :
    headsetWordArrival p w s = headsetWordArrival p w (headsetWordArrival q 0 s) := by
  have hown : headsetWordArrival q 0 s = takeWord s.words 0 s := by
    rcases headsetWordArrival_cases q 0 s with ⟨h, _⟩ | ⟨_, heq⟩
    · omega
    · rw [heq, ← hq, Nat.sub_self]
      rfl
  have hwords : (takeWord s.words 0 s).words = s.words + 1 := rfl
  have hfill : fillWords (p - s.words) s = fillWords (p - (s.words + 1)) (takeWord s.words 0 s) := by
    rw [show p - s.words = p - (s.words + 1) + 1 by omega]
    rfl
  rw [hown, headsetWordArrival, headsetWordArrival, if_neg (by omega), if_neg (by rw [hwords]; omega), hwords, hfill]

/-! ### The same word once more at a link that it has moved -/

theorem modLink_self {p : Nat} {f : Link → Link} {s : State} (h : f (s.linkAt p) = s.linkAt p) : s.modLink p f = s := by
  refine congrArg (fun l => { s with link := l }) (tab_ext _ _ fun q _ => ?_)
  show (s.modLink p f).linkAt q = s.linkAt q
  rw [State.modLink_linkAt]
  split
  next hpq => rw [h, hpq.1]
  next => rfl

/-- The word that brings a link UP is handled as any other at the link that it has brought UP (R160, R162). -/
theorem exec_raising (p : Fin 16) {w : BitVec 19} {s : State} (hwords : s.words = p) (hgood : wordGood w = true)
    (hprobing : (s.linkAt p).state = .probing) (hrun : 63 ≤ (s.linkAt p).goodRun) :
    exec (.headsetWordArrival p w) s =
      exec (.headsetWordArrival p w) (linkUp p (inboundSample w) (inboundButton w) s) := by
  have hlink : (linkUp p (inboundSample w) (inboundButton w) s).linkAt p =
      (s.linkAt p).raised (inboundSample w) (inboundButton w) := by rw [linkUp_linkAt, if_pos ⟨rfl, p.isLt⟩]
  have hword : headsetWord p w s = handOn p (inboundSample w) (linkUp p (inboundSample w) (inboundButton w) s) :=
    (if_pos hgood).trans (goodWord_raises _ _ hprobing hrun)
  rw [exec_headsetWordArrival p w hwords, exec_headsetWordArrival p w (by simpa using hwords), hword,
    headsetWord_steady p.isLt hgood (by rw [hlink]; rfl) (by rw [hlink]; rfl), modLink_self (by rw [hlink]; rfl)]

/-- The word that takes a link DOWN is handled as any other at the link that it has taken DOWN (R161, R162). -/
theorem exec_lowering (p : Fin 16) {w : BitVec 19} {s : State} (hwords : s.words = p) (hbad : ¬ wordGood w = true)
    (hup : (s.linkAt p).state = .up) (hrun : 7 ≤ (s.linkAt p).badRun) :
    exec (.headsetWordArrival p w) s = exec (.headsetWordArrival p w) (linkDown p s) := by
  have hlink : (linkDown p s).linkAt p = (s.linkAt p).lowered := by rw [linkDown_linkAt, if_pos ⟨rfl, p.isLt⟩]
  have hbadWord (u : State) : headsetWord p w u = badWord p u := if_neg hbad
  rw [exec_headsetWordArrival p w hwords, exec_headsetWordArrival p w (by simpa using hwords), hbadWord, hbadWord,
    badWord_lowers hup hrun, badWord_down (by rw [hlink]; rfl)]

theorem wordGood_iff (w : BitVec 19) : wordGood w = true ↔ ones w % 2 = 0 ∧ inboundPresent w = true := by
  simp [wordGood]

end Sys2Proof.Machine

open Sys2Proof Sys2Proof.Machine

/-- Settles O28: the word by the state of its link and its runs; the pool's part by what `linkUp` and `linkDown` make of the
pool before the same word's sample is handed on. -/
theorem headsetWordsMoveTheLink : Obligations.HeadsetWordsMoveTheLink := by
  intro p w s l d button run good held got others note
  refine ⟨fun hpast => ?_, fun q hq hlt => ?_, fun hwords => ?_⟩
  · refine congrArg Host.Outcome.next ?_
    rcases headsetWordArrival_cases p w s with ⟨_, heq⟩ | ⟨hle, _⟩
    · exact heq
    · omega
  · exact congrArg Host.Outcome.next (headsetWordArrival_passed w hq hlt)
  have hstep : run = .next ((headsetWord p w s).setWords (p + 1)) := exec_headsetWordArrival p w hwords
  have hown : ∃ x v, headsetWord p w s = handOn p x v ∧ OwnWord p s v := by
    unfold headsetWord
    split
    · exact goodWord_own _ _ p.isLt
    · exact badWord_own
  obtain ⟨x, v, hword, hv⟩ := hown
  refine ⟨_, hstep, ?_, ?_, fun hgood => ?_, fun hbad => ?_⟩
  · intro q _ hne
    rw [hword]
    exact hv.handOn_others hne
  · rw [hword]
    exact hv.handOn_eq
  · have hgood' : wordGood w = true := (wordGood_iff w).2 hgood
    rw [headsetWord, if_pos hgood']
    refine ⟨fun hdown => ?_, fun hprobing hrun => ?_, fun hprobing hrun => ?_, fun hup hb => ?_, fun hup hb hrun => ?_,
      fun hup hb hrun => ?_⟩
    · rw [goodWord_down d button hdown]
      exact wordDone_modLink p.isLt _
    · rw [goodWord_probing d button hprobing hrun]
      exact wordDone_modLink p.isLt _
    · rw [goodWord_raises d button hprobing hrun]
      obtain ⟨hlink, hraw, hcallQ, hpos⟩ := wordDone_own (d := d) (n := p + 1) (v := linkUp p d button s) p.isLt
      have hposAt : (linkUp p d button s).posAt p = s.posAt p := posAt_congr (by simp) p
      refine ⟨hlink.trans ?_, hraw, hpos.trans hposAt, hcallQ.trans (linkUp_callQ d button s), fun hpool => ?_⟩
      · rw [linkUp_linkAt, if_pos ⟨rfl, p.isLt⟩]
        rfl
      obtain ⟨hshort, hmaint⟩ := linkUp_shortfall p.isLt d button s
      refine ⟨linkUp p d button s, exec_raising p hwords hgood' hprobing hrun, fun q _ hne => ?_, hlink.symm, ?_,
        hcallQ.symm, ?_, fun q _ hne => ?_, fun g hg => linkUp_segAt p.isLt d button s hpool hg,
        ⟨fun hserved => ?_, fun hless => ?_⟩, linkUp_eq d button s⟩
      · obtain ⟨_, hothers⟩ := OwnWord.linkUp p d button s
        obtain ⟨hlinkAt, hecAt, hposAt⟩ := hothers q hne
        exact ⟨hlinkAt, hecAt, hposAt, mixAt_congr (by simp) q, levAt_congr (by simp) q⟩
      · rw [linkUp_ecAt, if_pos ⟨rfl, p.isLt⟩]
      · exact (linkUp_segsOf p.isLt d button s p).trans (if_pos rfl)
      · exact (linkUp_segsOf p.isLt d button s q).trans (if_neg hne)
      · exact ⟨hshort.trans (if_neg (Nat.not_lt.2 hserved)), hmaint.trans (if_neg (Nat.not_lt.2 hserved))⟩
      · exact ⟨hshort.trans (if_pos hless), hmaint.trans (if_pos hless)⟩
    · rw [goodWord_steady d p.isLt hup hb]
      exact wordDone_modLink p.isLt _
    · rw [goodWord_button d button p.isLt hup hb, if_pos hrun]
      exact wordDone_modLink p.isLt _
    · rw [goodWord_button d button p.isLt hup hb, if_neg (Nat.not_lt.2 hrun)]
      cases hpressed : button with
      | false =>
        obtain ⟨hlink, hraw, hcallQ, hpos⟩ := wordDone_modLink (s := s) (d := d) (n := p + 1) p.isLt
          (fun l => { l with badRun := 0, held := d, stable := false, change := 0 })
        exact ⟨hlink, hraw, fun _ => ⟨hcallQ, hpos⟩, nofun⟩
      | true =>
        obtain ⟨hlink, hraw, hpressed⟩ := wordDone_press (s := s) (d := d) (n := p + 1) p.isLt
          (fun l => { l with badRun := 0, held := d, stable := true, change := 0 })
        exact ⟨hlink, hraw, nofun, fun _ => hpressed⟩
  · have hbad' : ¬ wordGood w = true := mt (wordGood_iff w).1 hbad
    rw [headsetWord, if_neg hbad']
    refine ⟨fun hdown => ?_, fun hprobing => ?_, fun hup hrun => ?_, fun hup hrun => ?_⟩
    · rw [badWord_down hdown]
      exact wordDone_own p.isLt
    · rw [badWord_probing hprobing]
      exact wordDone_modLink p.isLt _
    · rw [badWord_up hup hrun]
      exact wordDone_modLink p.isLt _
    · rw [badWord_lowers hup hrun]
      obtain ⟨hlink, hraw, hcallQ, hpos⟩ := wordDone_own (d := 0) (n := p + 1) (v := linkDown p s) p.isLt
      have hlowered : (linkDown p s).linkAt p = (s.linkAt p).lowered := by rw [linkDown_linkAt, if_pos ⟨rfl, p.isLt⟩]
      have hnotUp : ((linkDown p s).linkAt p).state ≠ .up := by rw [hlowered]; nofun
      obtain ⟨hown, hother, hseg, hshort⟩ := givenBack_pool p.isLt s
      refine ⟨hlink.trans hlowered, hraw, ?_, fun hnone => ?_, ?_, hpos.trans ?_, hcallQ.trans (linkDown_callQ s),
        fun _ => ⟨s.givenBack p, ?_, ?_, fun q _ hne => ?_, hown, fun q _ hne => hother q hne, hseg, hshort, givenBack_eq s⟩⟩
      · rw [State.setWords_mixAt, handOn_mixAt, if_pos ⟨rfl, p.isLt⟩, handedOn_down _ _ _ hnotUp]
        simp [scaled, roundDiv]
      · rw [State.setWords_segsOf, (handOn_owners _ _ _).segsOf, linkDown_segsOf p.isLt s hnone]
      · rw [State.setWords_ecAt, handOn_ecAt, if_pos ⟨rfl, p.isLt⟩, if_pos (.inl hnotUp)]
        rfl
      · rw [linkDown_posAt, if_pos ⟨rfl, p.isLt⟩]
      · rw [← linkDown_eq_post]
        exact exec_lowering p hwords hbad' hup hrun
      · rw [hlink, hlowered, givenBack_linkAt, if_pos ⟨rfl, p.isLt⟩]
      · rw [givenBack_linkAt, if_neg fun h => hne h.1.symm]

end

section
/-! SUPPORT. The shortfall list served one segment at a time, a changed request, and the statement on both (R83 to R85, R88). -/

namespace Sys2Proof.Machine

/-! ### One turn of the service -/

theorem freeSegs_eq_nil {s : State} (h : ∀ g, g < 64 → (s.segAt g).owner ≠ none) : s.freeSegs = [] :=
  List.eq_nil_iff_forall_not_mem.2 fun g hmem => by
    obtain ⟨hlt, hnone⟩ := (mem_freeSegs s g).1 hmem
    exact h g hlt hnone

/-- The lowest-numbered free segment is the first of the free ones (R83). -/
theorem freeSegs_of_lowest {s : State} {g : Nat} (hg : g < 64) (hnone : (s.segAt g).owner = none)
    (hlowest : ∀ j, j < g → (s.segAt j).owner ≠ none) : ∃ rest, s.freeSegs = g :: rest := by
  rw [← List.head?_eq_some_iff, ← freeSeg_eq, State.freeSeg, List.find?_range_eq_some]
  exact ⟨by simp [hnone], by simpa using hg, fun j hj => by
    simpa [Option.isSome_iff_ne_none] using hlowest j hj⟩

theorem freeSegs_length_le (s : State) : s.freeSegs.length ≤ 64 := (List.length_filter_le _ _).trans (by simp)

/-- A service with as many turns as there are free segments is complete: a further turn does nothing (R88). -/
theorem serveShortfall_succ {n : Nat} {s : State} (hn : s.freeSegs.length ≤ n) :
    serveShortfall (n + 1) s = serveShortfall n s := by
  induction n generalizing s with
  | zero => exact serveShortfall_stop _ _ (.inr (List.eq_nil_of_length_eq_zero (Nat.le_zero.1 hn)))
  | succ n ih =>
    cases hshort : s.pool.short with
    | nil => rw [serveShortfall_stop _ _ (.inl hshort), serveShortfall_stop _ _ (.inl hshort)]
    | cons p rest =>
      cases hfree : s.freeSegs with
      | nil => rw [serveShortfall_stop _ _ (.inr hfree), serveShortfall_stop _ _ (.inr hfree)]
      | cons g frees =>
        rw [serveShortfall_cons _ _ hshort hfree, serveShortfall_cons _ _ hshort hfree]
        exact ih (by simpa [serveHead_freeSegs hfree, hfree] using hn)

/-- While a position waits and a segment is free, the service is one turn and then the service of what it leaves (R88). -/
theorem serveShort_turn {s : State} {p g : Nat} {rest frees : List Nat} (hshort : s.pool.short = p :: rest)
    (hfree : s.freeSegs = g :: frees) : serveShort s = serveShort (serveHead p g rest s) := by
  have hleft : (serveHead p g rest s).freeSegs.length ≤ 63 := by
    have hmost := freeSegs_length_le s
    rw [hfree] at hmost
    rw [serveHead_freeSegs hfree]
    exact Nat.le_of_succ_le_succ hmost
  exact (serveShortfall_cons 63 s hshort hfree).trans (serveShortfall_succ hleft).symm

/-! ### A changed request -/

section
variable {p : Nat} (r : Nat) (s : State)

/-- The state with the request stored and nothing else changed. -/
def State.requested (s : State) (p r : Nat) : State := s.modEc p (fun c => { c with request := r })

theorem requested_request (hp : p < 16) : ((s.requested p r).ecAt p).request = r := by
  simp [State.requested, hp]

/-- The segments that a raised request is given: the lowest-numbered free ones (R83). -/
theorem requested_grants (hp : p < 16) :
    (s.requested p r).grants p = s.freeSegs.take (r - (s.segsOf p).length) := by
  rw [State.grants, requested_request r s hp]
  rfl

/-- The state when the tail beyond a lowered request is free, before the waiting positions are served (R84). -/
def State.trimmed (s : State) (p r : Nat) : State :=
  freeTail p (s.granted p - r) ((s.requested p r).setShort (s.pool.short.erase p))

variable {r s}

theorem setRequest_same (h : r = (s.ecAt p).request) : setRequest p r s = s := if_pos h

theorem setRequest_stored (h : r ≠ (s.ecAt p).request) (hdown : (s.linkAt p).state ≠ .up) :
    setRequest p r s = s.requested p r := (if_neg h).trans (if_pos hdown)

theorem setRequest_raised (h : r ≠ (s.ecAt p).request) (hup : (s.linkAt p).state = .up) (hless : s.granted p < r) :
    setRequest p r s = servePosition p (s.requested p r) :=
  (if_neg h).trans ((if_neg (not_not.2 hup)).trans (if_pos hless))

theorem setRequest_lowered (h : r ≠ (s.ecAt p).request) (hup : (s.linkAt p).state = .up) (hle : r ≤ s.granted p) :
    setRequest p r s = serveShort (s.trimmed p r) :=
  (if_neg h).trans ((if_neg (not_not.2 hup)).trans (if_neg (Nat.not_lt.2 hle)))

/-- A lowered request keeps the head of the list; the tail is free, with zeros, and the position waits for nothing (R84). -/
theorem trimmed_pool (hp : p < 16) (hle : r ≤ s.granted p) :
    (s.trimmed p r).segsOf p = (s.segsOf p).take r ∧ (∀ q, q ≠ p → (s.trimmed p r).segsOf q = s.segsOf q) ∧
      (∀ g, g < 64 → (s.trimmed p r).segAt g = if g ∈ (s.segsOf p).drop r then Segment.free else s.segAt g) ∧
      (s.trimmed p r).pool.short = s.pool.short.erase p := by
  have hspec := freeTail_spec hp (s.granted p - r) ((s.requested p r).setShort (s.pool.short.erase p))
  have hlist : ((s.requested p r).setShort (s.pool.short.erase p)).segsOf p = s.segsOf p := rfl
  have hkept : (s.segsOf p).length - (s.granted p - r) = r := Nat.sub_sub_self hle
  rw [hlist, hkept] at hspec
  exact hspec

theorem trimmed_eq : s.trimmed p r = { s.requested p r with pool := (s.trimmed p r).pool } := by
  have halone := freeTail_alone p (s.granted p - r) ((s.requested p r).setShort (s.pool.short.erase p))
  have hmaint : (s.trimmed p r).maintQ = s.maintQ := by simp [State.trimmed, State.requested]
  calc s.trimmed p r
    _ = { s.requested p r with pool := (s.trimmed p r).pool, maintQ := (s.trimmed p r).maintQ } := halone
    _ = { s.requested p r with pool := (s.trimmed p r).pool } := by rw [hmaint]; rfl

end

end Sys2Proof.Machine

open Sys2Proof Sys2Proof.Machine

/-- Settles O27: the service turn by turn, and a changed request by the link and by the segments held. -/
theorem raisedAndLoweredRequestsMoveSegments : Obligations.RaisedAndLoweredRequestsMoveSegments := by
  refine ⟨fun v hstop => ?_, fun p g rest v hshort hg hnone hlowest => ?_, fun p r s hp _ => ⟨setRequest_same,
    setRequest_stored, fun hne hup hless => ?_, fun hne hup hle => ?_⟩⟩
  · exact serveShortfall_stop 64 v (hstop.imp_right freeSegs_eq_nil)
  · obtain ⟨frees, hfree⟩ := freeSegs_of_lowest hg hnone hlowest
    have hturn := serveShort_turn hshort hfree
    exact ⟨fun hmore => hturn.trans (congrArg serveShort (if_neg (Nat.not_le.2 hmore))),
      fun hfull => hturn.trans (congrArg serveShort (if_pos hfull))⟩
  · have hgrants := requested_grants r s hp
    have hrequest := requested_request r s hp
    have hshort := servePosition_short hp (s.requested p r)
    have hmaint := servePosition_maintQ hp (s.requested p r)
    rw [hgrants, hrequest] at hshort hmaint
    dsimp only
    rw [setRequest_raised hne hup hless]
    refine ⟨?_, fun q _ hqp => ?_, fun g _ => ?_, fun hserved => ?_, fun hstill => ?_, servePosition_alone p _⟩
    · rw [servePosition_segsOf hp, if_pos rfl, hgrants]
      rfl
    · rw [servePosition_segsOf hp, if_neg hqp]
      rfl
    · rw [servePosition_segAt, hgrants]
      rfl
    · exact ⟨hshort.trans (if_neg hserved.not_lt), hmaint.trans (if_neg hserved.not_lt)⟩
    · rw [State.shortfallNotice, hrequest] at hmaint
      exact ⟨hshort.trans (if_pos hstill), hmaint.trans (if_pos hstill)⟩
  · obtain ⟨hown, hother, hseg, hshort⟩ := trimmed_pool hp hle
    have hlowered := setRequest_lowered hne hup hle
    refine ⟨s.trimmed p r, hlowered, hown, fun q _ => hother q, hseg, hshort, trimmed_eq, fun hnone => ?_⟩
    exact hlowered.trans (serveShortfall_stop 64 _ (.inl (hshort.trans hnone)))

end

section
/-! SUPPORT. Records as their fields, one after the other, most significant byte first (R198). -/

namespace Sys2Proof.Machine

/-! ### The bytes of a field -/

/-- The bytes of a value in a field of `n` bytes. -/
def bigEndian : Nat → Nat → List Byte
  | 0, _ => []
  | n + 1, v => toByte (v / 256 ^ n) :: bigEndian n v

theorem put1_eq_bigEndian (v : Nat) : put1 v = bigEndian 1 v := by simp [put1, bigEndian]
theorem put2_eq_bigEndian (v : Nat) : put2 v = bigEndian 2 v := by simp [put2, bigEndian]
theorem put3_eq_bigEndian (v : Nat) : put3 v = bigEndian 3 v := by simp [put3, bigEndian]

theorem bigEndian_length (n v : Nat) : (bigEndian n v).length = n := by
  induction n with
  | zero => rfl
  | succ n ih => rw [bigEndian, List.length_cons, ih]

/-- Reading the bytes of a value gives the value again, as far as its field can hold it. -/
theorem foldl_bigEndian (n v a : Nat) :
    (bigEndian n v).foldl (fun x b => 256 * x + b.toNat) a = a * 256 ^ n + v % 256 ^ n := by
  induction n generalizing a with
  | zero => simp [bigEndian, Nat.mod_one]
  | succ n ih =>
    have hbyte : (toByte (v / 256 ^ n)).toNat = v / 256 ^ n % 256 := by simp [toByte]
    rw [bigEndian, List.foldl_cons, ih, hbyte, pow_succ, Nat.mod_mul]
    ring

/-! ### The bytes of a record -/

/-- The bytes of a list of fields, one after the other. -/
def spelled (fs : List Field) : List Byte := fs.flatMap (fun f => bigEndian f.bytes f.value)

/-- The bytes that a list of fields takes. -/
def width (fs : List Field) : Nat := (fs.map Field.bytes).sum

/-- The fields stand one right after the other, the first of them at offset `o`. -/
inductive InPlace : Nat → List Field → Prop
  | nil (o : Nat) : InPlace o []
  | cons {o : Nat} {f : Field} {fs : List Field} (hoffset : f.offset = o) (hrest : InPlace (o + f.bytes) fs) :
      InPlace o (f :: fs)

theorem inPlace_nil (o : Nat) : InPlace o [] := .nil o

theorem inPlace_cons {o : Nat} {f : Field} {fs : List Field} :
    InPlace o (f :: fs) ↔ f.offset = o ∧ InPlace (o + f.bytes) fs := by
  refine ⟨fun h => ?_, fun ⟨hoffset, hrest⟩ => .cons hoffset hrest⟩
  cases h with
  | cons hoffset hrest => exact ⟨hoffset, hrest⟩

theorem spelled_nil : spelled [] = [] := rfl
theorem spelled_cons (f : Field) (fs : List Field) : spelled (f :: fs) = bigEndian f.bytes f.value ++ spelled fs := rfl
theorem spelled_append (fs gs : List Field) : spelled (fs ++ gs) = spelled fs ++ spelled gs := List.flatMap_append
theorem width_nil : width [] = 0 := rfl
theorem width_cons (f : Field) (fs : List Field) : width (f :: fs) = f.bytes + width fs := rfl
theorem width_append (fs gs : List Field) : width (fs ++ gs) = width fs + width gs := by simp [width]

theorem spelled_length (fs : List Field) : (spelled fs).length = width fs := by
  induction fs with
  | nil => rfl
  | cons f fs ih => rw [spelled_cons, List.length_append, bigEndian_length, ih, width_cons]

theorem inPlace_append {o : Nat} {fs gs : List Field} :
    InPlace o (fs ++ gs) ↔ InPlace o fs ∧ InPlace (o + width fs) gs := by
  induction fs generalizing o with
  | nil => simp [inPlace_nil, width_nil]
  | cons f fs ih => simp [inPlace_cons, width_cons, ih, and_assoc, Nat.add_assoc]

/-- Each field of fields that stand in place is read where it stands. -/
theorem fieldAt_spelled {fs : List Field} {f : Field} (hf : f ∈ fs) {front : List Byte}
    (h : InPlace front.length fs) : fieldAt (front ++ spelled fs) f.offset f.bytes = f.value % 256 ^ f.bytes := by
  induction fs generalizing front with
  | nil => cases hf
  | cons g fs ih =>
    obtain ⟨hoffset, hrest⟩ := inPlace_cons.1 h
    rw [spelled_cons]
    rcases List.mem_cons.1 hf with rfl | hf
    · rw [fieldAt, hoffset, List.drop_left, List.take_left' (bigEndian_length _ _), foldl_bigEndian]
      omega
    · rw [← List.append_assoc]
      exact ih hf (by rwa [List.length_append, bigEndian_length])

/-- A record that is spelled by fields in place holds them. -/
theorem holdsFields_of_spelled {d : List Byte} {n : Nat} {fs : List Field} (hd : d = spelled fs) (hn : width fs = n)
    (h : InPlace 0 fs) : HoldsFields d n fs := by
  subst hd hn
  exact ⟨spelled_length fs, fun f hf => fieldAt_spelled (front := []) hf h⟩

theorem HoldsFields.of_subset {d : List Byte} {n : Nat} {fs gs : List Field} (h : HoldsFields d n fs) (hsub : gs ⊆ fs) :
    HoldsFields d n gs := h.imp_right fun hfields f hf => hfields f (hsub hf)

/-! ### Fields of one byte -/

theorem bytesFrom_cons (o v : Nat) (vs : List Nat) : bytesFrom o (v :: vs) = ⟨o, 1, v⟩ :: bytesFrom (o + 1) vs := by
  simp [bytesFrom, List.mapIdx_cons, Nat.add_comm, Nat.add_left_comm]

theorem spelled_bytesFrom (o : Nat) (vs : List Nat) : spelled (bytesFrom o vs) = vs.flatMap put1 := by
  induction vs generalizing o with
  | nil => rfl
  | cons v vs ih => rw [bytesFrom_cons, spelled_cons, ih, List.flatMap_cons, put1_eq_bigEndian]

theorem width_bytesFrom (o : Nat) (vs : List Nat) : width (bytesFrom o vs) = vs.length := by
  induction vs generalizing o with
  | nil => rfl
  | cons v vs ih => rw [bytesFrom_cons, width_cons, ih, List.length_cons, Nat.add_comm]

theorem inPlace_bytesFrom (o : Nat) (vs : List Nat) : InPlace o (bytesFrom o vs) := by
  induction vs generalizing o with
  | nil => exact .nil o
  | cons v vs ih => rw [bytesFrom_cons]; exact .cons rfl (ih _)

/-! ### Groups of fields of one width -/

theorem spelled_flatten (gs : List (List Field)) : spelled gs.flatten = gs.flatMap spelled := by
  induction gs with
  | nil => rfl
  | cons g gs ih => rw [List.flatten_cons, spelled_append, ih, List.flatMap_cons]

theorem width_flatten {w : Nat} {gs : List (List Field)} (h : ∀ g ∈ gs, width g = w) :
    width gs.flatten = w * gs.length := by
  induction gs with
  | nil => simp [width_nil]
  | cons g gs ih =>
    rw [List.flatten_cons, width_append, h g (by simp), ih fun g hg => h g (by simp [hg]), List.length_cons, Nat.mul_succ,
      Nat.add_comm]

theorem inPlace_flatten {o w : Nat} {gs : List (List Field)} (hw : ∀ g ∈ gs, width g = w)
    (h : ∀ (j : Nat) (hj : j < gs.length), InPlace (o + w * j) gs[j]) : InPlace o gs.flatten := by
  induction gs generalizing o with
  | nil => exact .nil o
  | cons g gs ih =>
    rw [List.flatten_cons, inPlace_append, hw g (by simp)]
    refine ⟨h 0 (by simp), ih (fun g hg => hw g (by simp [hg])) fun j hj => ?_⟩
    have hnext := h (j + 1) (by simpa using hj)
    rwa [Nat.mul_succ, Nat.add_comm (w * j), ← Nat.add_assoc] at hnext

section
variable {o w n : Nat} {f : Nat → List Field}

theorem spelled_flatMap_range : spelled ((List.range n).flatMap f) = (List.range n).flatMap (fun j => spelled (f j)) := by
  rw [List.flatMap_def, spelled_flatten, List.flatMap_map]

theorem width_flatMap_range (hw : ∀ j, width (f j) = w) : width ((List.range n).flatMap f) = w * n := by
  rw [List.flatMap_def, width_flatten (w := w) (by simp [hw]), List.length_map, List.length_range]

theorem inPlace_flatMap_range (hw : ∀ j, width (f j) = w) (h : ∀ j, InPlace (o + w * j) (f j)) :
    InPlace o ((List.range n).flatMap f) := by
  rw [List.flatMap_def]
  exact inPlace_flatten (w := w) (by simp [hw]) fun j hj => by simpa using h j

end

end Sys2Proof.Machine
end

section
/-! SUPPORT. The numbers of named values are their places in the order of their tables (R198, section 12.2); then places and
lists in a record. -/

namespace Sys2Proof.Machine

theorem kindCode_eq_idxOf (k : NoticeKind) : kindCode k =
    [NoticeKind.callReleased, .muteEffective, .buttonMute, .headsetUp, .headsetDown, .promptEnded,
      .streamUnderrun, .clockFail, .clockLocked, .started, .monitorEnded, .whisperEnded, .whisperFlushed, .tapShortfall,
      .tapGranted, .programmeEnded, .programmeChanged, .clipFreed, .storeDone].idxOf k := by cases k <;> rfl

theorem causeCode_eq_idxOf (c : Cause) : causeCode c =
    [Cause.completed, .interrupted, .flushed, .stopped, .released, .noListeners, .dropped,
      .unavailable, .supervisorCall, .callEnd, .lineLoss, .ok, .timeout, .bad, .noStore].idxOf c := by cases c <;> rfl

theorem callCode_eq_idxOf (c : CallState) : callCode c = [CallState.free, .connected, .held].idxOf c := by cases c <;> rfl

theorem formCode_eq_idxOf (f : RelationForm) : formCode f = [RelationForm.monitoredBy, .monitoring].idxOf f := by
  cases f <;> rfl

theorem modeCode_eq_idxOf (m : MonitorMode) : modeCode m = [MonitorMode.listen, .whisper, .barge].idxOf m := by
  cases m <;> rfl

theorem linkCode_eq_idxOf (l : LinkState) : linkCode l = [LinkState.down, .probing, .up].idxOf l := by cases l <;> rfl

theorem cancellerCode_eq_idxOf (c : CancellerState) :
    cancellerCode c = [CancellerState.off, .adapting, .doubleTalk, .quietRef, .frozen].idxOf c := by cases c <;> rfl

theorem admissionCode_eq_idxOf (a : Admission) : admissionCode a = [Admission.append, .interrupt].idxOf a := by
  cases a <;> rfl

theorem clipStateCode_eq_idxOf (c : ClipState) : clipStateCode c = [ClipState.empty, .active, .retiring].idxOf c := by
  cases c <;> rfl

theorem classCode_eq_idxOf (c : ClipClass) : classCode c = [ClipClass.music, .whisper, .caller].idxOf c := by
  cases c <;> rfl

theorem streamCode_eq_idxOf (x : StreamState) :
    streamCode x = [StreamState.idle, .priming, .playing, .ending, .stopping].idxOf x := by cases x <;> rfl

theorem streamKindCode_eq_idxOf (k : StreamKind) :
    streamKindCode k = [StreamKind.programme, .whisper, .caller].idxOf k := by cases k <;> rfl

theorem dirCode_eq_idxOf (d : RampDir) : dirCode d = [RampDir.falling, .rising].idxOf d := by cases d <;> rfl

theorem timingCode_eq_idxOf (t : TimingState) : timingCode t = [TimingState.freeRun, .acquiring, .locked].idxOf t := by
  cases t <;> rfl

/-! ### Parts of a record -/

theorem placeIn_eq (p : Nat) (l : List Nat) : placeIn p l = if p ∈ l then some (l.idxOf p) else none := by
  split
  next h => exact List.findIdx?_eq_some_of_exists ⟨p, h, by simp⟩
  next h =>
    rw [placeIn, List.findIdx?_eq_none_iff]
    exact fun x hx => beq_eq_false_iff_ne.2 fun hxp => h (hxp ▸ hx)

theorem putList_eq (n : Nat) (l : List Nat) :
    putList n l = ((List.range n).map (fun j => absentOr 1 l[j]?)).flatMap put1 := by
  rw [List.flatMap_map]
  rfl

end Sys2Proof.Machine
end

section
/-! SUPPORT. The records of section 12.3 as lists of fields, and that each record holds its fields (Tables 12-2, 12-4 and
12-5). -/

namespace Sys2Proof.Machine

/-! ### The fields of the records -/

/-- Slot number and stream state of a position's stream, or two absent fields (Table 12-4). -/
def State.streamPlace (s : State) (k : StreamKind) (p : Nat) : List Nat :=
  match s.streamOf k p with
  | some i => [i, streamCode (s.slotAt i).state]
  | none => [255, 255]

/-- The fields of place `j` for a whisper queue item (Table 12-4). -/
def itemFields (j : Nat) (it : Option WhisperItem) : List Field :=
  [⟨45 + 4 * j, 1, absentOr 1 (it.map (·.clip))⟩, ⟨46 + 4 * j, 2, absentOr 2 (it.map (·.gain))⟩,
    ⟨48 + 4 * j, 1, absentOr 1 (it.map (fun i => admissionCode i.admission))⟩]

/-- The fields of READ_POSITION (Table 12-4). -/
def State.positionFields (s : State) (p : Nat) : List Field :=
  let x := s.posAt p
  let l := s.linkAt p
  let c := s.ecAt p
  let v := s.levAt p
  let q := s.queueAt p
  bytesFrom 0
    [callCode x.call, absentOr 1 (x.binding.map (·.rx)), absentOr 1 (x.binding.map (·.tx)), absentOr 1 x.hold,
      bit x.cmdMute, bit x.btnMute, bit x.effMute, x.ramp, absentOr 1 (x.relation.map (fun r => formCode r.form)),
      absentOr 1 (x.relation.map (·.other)), absentOr 1 (x.relation.map (fun r => modeCode r.mode))] ++
  [⟨11, 2, absentOr 2 (x.relation.bind (·.gain))⟩, ⟨13, 2, x.rxGain⟩, ⟨15, 2, x.txGain⟩, ⟨17, 2, x.sidetone⟩] ++
  bytesFrom 19 [linkCode l.state, l.badRun, bit l.stable, cancellerCode c.state] ++ [⟨23, 2, s.filterLength p⟩] ++
  bytesFrom 25 [c.hangover, c.step, c.shift, bit c.freeze, c.request] ++ [⟨30, 2, v.level⟩, ⟨32, 2, v.floor⟩] ++
  bytesFrom 34 [bit v.raw, v.hang, bit v.voice, bit v.bleed, v.atten, v.guard, absentOr 1 v.neighbours[0]?,
    absentOr 1 v.neighbours[1]?, absentOr 1 v.neighbours[2]?, absentOr 1 v.neighbours[3]?, q.length] ++
  (List.range 4).flatMap (fun j => itemFields j q[j]?) ++
  bytesFrom 61 ([absentOr 1 (placeIn p s.waitList)] ++ s.streamPlace .whisper p ++ s.streamPlace .caller p)

/-- The fields of READ_STREAM (Table 12-5). -/
def State.streamFields (s : State) (i : Nat) : List Field :=
  let x := s.slotAt i
  bytesFrom 0 [streamCode x.state, absentOr 1 (x.kind.map streamKindCode), absentOr 1 x.target, absentOr 1 x.clip] ++
  [⟨4, 3, x.addr⟩, ⟨7, 3, x.left⟩, ⟨10, 2, x.buffer.length⟩] ++
  bytesFrom 12 [absentOr 1 x.repeats, absentOr 1 (x.hears.map bit)] ++ [⟨14, 2, absentOr 2 x.gain⟩] ++
  bytesFrom 16 [x.ramp, absentOr 1 (x.dir.map dirCode), bit x.begun, absentOr 1 (x.cause.map causeCode), bit x.underrun,
    absentOr 1 (s.pendingOfSlot i)]

/-- The fields of READ_CLIP (Table 12-5). -/
def State.clipFields (s : State) (c : Nat) : List Field :=
  let e := s.clipAt c
  bytesFrom 0 [clipStateCode e.state, absentOr 1 (e.body.map (fun b => classCode b.cls))] ++
  [⟨2, 3, absentOr 3 (e.body.map (·.start))⟩, ⟨5, 3, absentOr 3 (e.body.map (·.length))⟩,
    ⟨8, 3, absentOr 3 (e.body.bind (·.loop))⟩] ++
  bytesFrom 11 [e.use, bit e.fenced, maskOf 4 (fun k => (s.progAt k).clip == some c),
    maskOf 4 (fun k => (s.progAt k).pending == .clip c)]

/-- The fields of READ_TIMING (Table 12-5). -/
def State.timingFields (s : State) : List Field :=
  let t := s.tmn
  bytesFrom 0 [timingCode t.state, t.count, bit t.failFlag, bit t.force, t.grace, bit t.running] ++
  [⟨6, 2, t.elapsed⟩, ⟨8, 2, t.blockCount⟩] ++
  bytesFrom 10 ((List.range 4).map (fun b => maskOf 8 (fun j => s.hwy.drive.contains (8 * b + j))))

/-- The fields of a position in the READ_POOL record (Table 12-5). -/
def State.poolPlace (s : State) (p : Nat) : List Field :=
  bytesFrom (18 + 10 * p)
    ([(s.ecAt p).request, s.granted p] ++ (List.range 8).map (fun j => absentOr 1 (s.segsOf p)[j]?))

/-- The fields of READ_POOL (Table 12-5). -/
def State.poolFields (s : State) : List Field :=
  bytesFrom 0 ([s.freeCount, s.pool.short.length] ++ (List.range 16).map (fun j => absentOr 1 s.pool.short[j]?)) ++
  (List.range 16).flatMap s.poolPlace

/-- The fields of the notice record in place `j` (Table 12-2). -/
def noticeFields (j : Nat) (m : Notice) : List Field :=
  bytesFrom (2 + 9 * j)
    [kindCode m.kind, absentOr 1 m.position, absentOr 1 m.subject, absentOr 1 (m.cause.map causeCode)] ++
  [⟨6 + 9 * j, 3, absentOr 3 m.value⟩, ⟨9 + 9 * j, 2, m.stamp⟩]

/-! ### The records spell their fields -/

theorem putOpt1_eq (o : Option Nat) : putOpt1 o = put1 (absentOr 1 o) := rfl
theorem putOpt2_eq (o : Option Nat) : putOpt2 o = put2 (absentOr 2 o) := rfl
theorem putOpt3_eq (o : Option Nat) : putOpt3 o = put3 (absentOr 3 o) := rfl

theorem streamBytes_eq (s : State) (k : StreamKind) (p : Nat) : s.streamBytes k p = (s.streamPlace k p).flatMap put1 := by
  unfold State.streamBytes State.streamPlace
  cases s.streamOf k p <;> rfl

theorem streamPlace_length (s : State) (k : StreamKind) (p : Nat) : (s.streamPlace k p).length = 2 := by
  unfold State.streamPlace
  cases s.streamOf k p <;> rfl

theorem spelled_byte (o v : Nat) (fs : List Field) : spelled (⟨o, 1, v⟩ :: fs) = put1 v ++ spelled fs := by
  rw [spelled_cons, put1_eq_bigEndian]

theorem spelled_two (o v : Nat) (fs : List Field) : spelled (⟨o, 2, v⟩ :: fs) = put2 v ++ spelled fs := by
  rw [spelled_cons, put2_eq_bigEndian]

theorem spelled_three (o v : Nat) (fs : List Field) : spelled (⟨o, 3, v⟩ :: fs) = put3 v ++ spelled fs := by
  rw [spelled_cons, put3_eq_bigEndian]

theorem spelled_itemFields (j : Nat) (it : Option WhisperItem) : spelled (itemFields j it) = itemBytes it := by
  simp only [itemBytes, itemFields, spelled_byte, spelled_two, spelled_nil, putOpt1_eq, putOpt2_eq, List.append_assoc,
    List.append_nil]

theorem spelled_items (q : List WhisperItem) : spelled ((List.range 4).flatMap (fun j => itemFields j q[j]?)) =
    itemBytes q[0]? ++ itemBytes q[1]? ++ itemBytes q[2]? ++ itemBytes q[3]? := by
  simp only [spelled_flatMap_range, spelled_itemFields]
  simp [List.range_succ]

theorem putList_four (l : List Nat) :
    putList 4 l = putOpt1 l[0]? ++ (putOpt1 l[1]? ++ (putOpt1 l[2]? ++ putOpt1 l[3]?)) := by
  simp [putList, List.range_succ]

theorem positionRecord_eq (s : State) (p : Nat) : s.positionRecord p = spelled (s.positionFields p) := by
  unfold State.positionRecord State.positionFields
  simp only [spelled_append, spelled_bytesFrom, spelled_two, spelled_nil, spelled_items, putList_four, streamBytes_eq,
    putOpt1_eq, putOpt2_eq, List.flatMap_cons, List.flatMap_nil, List.flatMap_append, List.append_nil, List.append_assoc]

theorem streamRecord_eq (s : State) (i : Nat) : s.streamRecord i = spelled (s.streamFields i) := by
  simp only [State.streamRecord, State.streamFields, spelled_append, spelled_bytesFrom, spelled_two, spelled_three,
    spelled_nil, putOpt1_eq, putOpt2_eq, List.flatMap_cons, List.flatMap_nil, List.append_nil, List.append_assoc]

theorem clipRecord_eq (s : State) (c : Nat) : s.clipRecord c = spelled (s.clipFields c) := by
  simp only [State.clipRecord, State.clipFields, spelled_append, spelled_bytesFrom, spelled_three, spelled_nil, putOpt1_eq,
    putOpt3_eq, List.flatMap_cons, List.flatMap_nil, List.append_nil, List.append_assoc]

theorem timingRecord_eq (s : State) : s.timingRecord = spelled s.timingFields := by
  have hdrive : ((List.range 4).map (fun b => maskOf 8 (fun j => s.hwy.drive.contains (8 * b + j)))).flatMap put1 =
      s.driveByte 0 ++ (s.driveByte 8 ++ (s.driveByte 16 ++ s.driveByte 24)) := by
    simp [List.range_succ, State.driveByte]
  simp only [State.timingRecord, State.timingFields, spelled_append, spelled_bytesFrom, spelled_two, spelled_nil, hdrive,
    List.flatMap_cons, List.flatMap_nil, List.append_nil, List.append_assoc]

theorem poolRecord_eq (s : State) : s.poolRecord = spelled s.poolFields := by
  simp only [State.poolRecord, State.poolFields, State.poolPlace, spelled_append, spelled_flatMap_range, spelled_bytesFrom,
    putList_eq, List.flatMap_append, List.flatMap_cons, List.flatMap_nil, List.append_nil, List.append_assoc]

theorem noticeBytes_eq (j : Nat) (m : Notice) : noticeBytes m = spelled (noticeFields j m) := by
  simp only [noticeBytes, noticeFields, spelled_append, spelled_bytesFrom, spelled_two, spelled_three, spelled_nil,
    putOpt1_eq, putOpt3_eq, List.flatMap_cons, List.flatMap_nil, List.append_nil, List.append_assoc]

/-! ### The records hold their fields -/

section
variable (s : State)

theorem itemFields_width (q : List WhisperItem) (j : Nat) : width (itemFields j q[j]?) = 4 := rfl

theorem positionFields_width (p : Nat) : width (s.positionFields p) = 66 := by
  simp only [State.positionFields, width_append, width_bytesFrom, width_flatMap_range (itemFields_width _), width_cons,
    width_nil, List.length_append, streamPlace_length, List.length_cons, List.length_nil]

theorem positionFields_inPlace (p : Nat) : InPlace 0 (s.positionFields p) := by
  have hitems (q : List WhisperItem) : InPlace 45 ((List.range 4).flatMap (fun j => itemFields j q[j]?)) :=
    inPlace_flatMap_range (itemFields_width q) fun j => by simp [itemFields, inPlace_cons, inPlace_nil]; omega
  simp [State.positionFields, inPlace_append, width_bytesFrom, width_flatMap_range (itemFields_width _), inPlace_cons,
    inPlace_bytesFrom, hitems]

theorem positionRecord_holds (p : Nat) : HoldsFields (s.positionRecord p) 66 (s.positionFields p) :=
  holdsFields_of_spelled (positionRecord_eq s p) (positionFields_width s p) (positionFields_inPlace s p)

theorem streamRecord_holds (i : Nat) : HoldsFields (s.streamRecord i) 22 (s.streamFields i) := by
  refine holdsFields_of_spelled (streamRecord_eq s i) ?_ ?_
  · simp [State.streamFields, width_append, width_bytesFrom, width_cons]
  · simp [State.streamFields, inPlace_append, width_bytesFrom, inPlace_cons, inPlace_bytesFrom]

theorem clipRecord_holds (c : Nat) : HoldsFields (s.clipRecord c) 15 (s.clipFields c) := by
  refine holdsFields_of_spelled (clipRecord_eq s c) rfl ?_
  simp [State.clipFields, inPlace_append, width_bytesFrom, inPlace_cons, inPlace_bytesFrom]

theorem timingRecord_holds : HoldsFields s.timingRecord 14 s.timingFields := by
  refine holdsFields_of_spelled (timingRecord_eq s) rfl ?_
  simp [State.timingFields, inPlace_append, width_bytesFrom, inPlace_cons, inPlace_bytesFrom]

theorem poolRecord_holds : HoldsFields s.poolRecord 178 s.poolFields := by
  have hplace (p : Nat) : width (s.poolPlace p) = 10 := width_bytesFrom _ _
  refine holdsFields_of_spelled (poolRecord_eq s) ?_ ?_
  · rw [State.poolFields, width_append, width_bytesFrom, width_flatMap_range hplace]
    rfl
  · rw [State.poolFields, inPlace_append, width_bytesFrom]
    exact ⟨inPlace_bytesFrom _ _, inPlace_flatMap_range hplace fun p => inPlace_bytesFrom _ _⟩

end

/-! ### Fetched notices -/

/-- The reply to FETCH_NOTICES: the overflow flag, the count, and the notices (R194). -/
def fetchedBytes (overflow : Bool) (l : List Notice) : List Byte :=
  put1 (bit overflow) ++ put1 l.length ++ l.flatMap noticeBytes

theorem fetched_holds (overflow : Bool) (l : List Notice) :
    HoldsFields (fetchedBytes overflow l) (2 + 9 * l.length)
      (bytesFrom 0 [bit overflow, l.length] ++ (l.mapIdx noticeFields).flatten) := by
  have hplace : ∀ g ∈ l.mapIdx noticeFields, width g = 9 := by
    simp only [List.mem_mapIdx]
    rintro _ ⟨j, hj, rfl⟩
    rfl
  refine holdsFields_of_spelled ?_ ?_ ?_
  · have hnotices : (l.mapIdx noticeFields).map spelled = l.map noticeBytes :=
      List.ext_getElem (by simp) fun j _ _ => by simp only [List.getElem_map, List.getElem_mapIdx, ← noticeBytes_eq]
    simp only [fetchedBytes, spelled_append, spelled_bytesFrom, spelled_flatten, List.flatMap_def, hnotices,
      List.map_cons, List.map_nil, List.flatten_cons, List.flatten_nil, List.append_nil]
  · rw [width_append, width_bytesFrom, width_flatten hplace, List.length_mapIdx]
    rfl
  · rw [inPlace_append, width_bytesFrom]
    refine ⟨inPlace_bytesFrom _ _, inPlace_flatten hplace fun j hj => ?_⟩
    rw [List.getElem_mapIdx, noticeFields, inPlace_append, width_bytesFrom]
    exact ⟨inPlace_bytesFrom _ _, by simp [inPlace_cons, inPlace_nil]; omega⟩

/-- The same fields in another order, as the statement lists those of READ_STREAM. -/
theorem moved_subset (a b c d : Field) (front mid back : List Field) :
    front ++ [a, b, c, d] ++ mid ++ back ⊆ front ++ [a, b, c] ++ mid ++ [d] ++ back := by
  intro f
  simp only [List.mem_append, List.mem_cons, List.not_mem_nil]
  tauto

end Sys2Proof.Machine
end

section
/-! SUPPORT. The READ commands and FETCH_NOTICES on the accepted frame, and the statement (R188, R192, R194, R195). -/

namespace Sys2Proof.Machine

/-! ### Frames of every role -/

/-- A command that every role may send, in STARTING too, is answered by its block (R188, Table 11-5). -/
theorem takeFrame_everyRole {st : Station} {r : Role} {code : Byte} {fits : Bool} {core : Role → State → State × Answer}
    {s t : State} {a : Answer} (hr : stationRole st = some r) (hfits : fits = true) (hcore : core r s.accepted = (t, a)) :
    takeFrame st code everyRole fits true core s = t.owe st code a := by
  have hmem : r ∈ everyRole := by cases r <;> decide
  rw [takeFrame_taken st code everyRole fits true core s r hr hmem hfits (.inr rfl), hcore]

theorem readCore_out {limit n : Nat} (hn : n < 256) (h : limit ≤ n) (record : State → Nat → List Byte) (s : State) :
    readCore limit record [toByte n] s = (s, .bare .range) := by
  rw [readCore, field1_toByte n _ hn, if_pos h]

theorem readCore_in {limit n : Nat} (hn : n < 256) (h : n < limit) (record : State → Nat → List Byte) (s : State) :
    readCore limit record [toByte n] s = (s, .doneWith (record s n)) := by
  rw [readCore, field1_toByte n _ hn, if_neg (Nat.not_le.2 h)]

/-! ### READs (R192) -/

theorem accepted_positionRecord (s : State) (p : Nat) : s.accepted.positionRecord p = s.positionRecord p := rfl
theorem accepted_streamRecord (s : State) (i : Nat) : s.accepted.streamRecord i = s.streamRecord i := rfl
theorem accepted_clipRecord (s : State) (c : Nat) : s.accepted.clipRecord c = s.clipRecord c := rfl

section
variable {st : Station} {r : Role} {n : Nat} {s : State}

/-- The READ of a numbered record on the accepted frame (R192). -/
def readFrame (st : Station) (code : Byte) (limit : Nat) (record : State → Nat → List Byte) (n : Nat)
    (s : State) : State := takeFrame st code everyRole true true (fun _ => readCore limit record [toByte n]) s

theorem exec_readPosition : exec (.readPosition st [toByte n]) s =
    .next (readFrame st 0x70 16 State.positionRecord n s) := rfl

theorem exec_readStream : exec (.readStream st [toByte n]) s =
    .next (readFrame st 0x71 24 State.streamRecord n s) := rfl

theorem exec_readClip : exec (.readClip st [toByte n]) s =
    .next (readFrame st 0x72 128 State.clipRecord n s) := rfl


variable {code : Byte} {limit : Nat} {record : State → Nat → List Byte} (hr : stationRole st = some r) (hn : n < 256)
include hr hn

theorem readFrame_out (h : limit ≤ n) : .next (readFrame st code limit record n s) = s.refuses st code .range :=
  congrArg _ (takeFrame_everyRole hr rfl (readCore_out hn h record _))

theorem readFrame_in (h : n < limit) (hstands : record s.accepted n = record s n) :
    readFrame st code limit record n s = s.accepted.owe st code { status := .done, data := record s n } := by
  rw [← hstands]
  exact takeFrame_everyRole hr rfl (readCore_in hn h record _)

end

section
variable {st : Station} {r : Role} (hr : stationRole st = some r) (s : State)
include hr

theorem exec_readTiming : exec (.readTiming st []) s =
    .next (s.accepted.owe st 0x73 { status := .done, data := s.timingRecord }) :=
  congrArg _ (takeFrame_everyRole (core := fun _ t => (t, .doneWith t.timingRecord)) hr rfl rfl)

theorem exec_readPool : exec (.readPool st []) s =
    .next (s.accepted.owe st 0x74 { status := .done, data := s.poolRecord }) :=
  congrArg _ (takeFrame_everyRole (core := fun _ t => (t, .doneWith t.poolRecord)) hr rfl rfl)

end

/-! ### Fetched notices (R194, R195) -/

theorem fetchNoticesCore_out {n : Nat} (hn : n < 256) (h : n = 0 ∨ 4 < n) (r : Role) (s : State) :
    fetchNoticesCore [toByte n] r s = (s, .bare .range) := by
  rw [fetchNoticesCore, field1_toByte n _ hn, if_pos h]

theorem fetchNoticesCore_in {n : Nat} (hlo : 1 ≤ n) (hhi : n ≤ 4) (r : Role) (s : State) :
    fetchNoticesCore [toByte n] r s = (s.setNotices r ((s.noticesOf r).fetched n),
      .doneWith (fetchedBytes (s.noticesOf r).overflow ((s.noticesOf r).records.take n))) := by
  rw [fetchNoticesCore, field1_toByte n _ (by omega), if_neg (by omega)]
  rfl

section
variable {st : Station} {r : Role} {n : Nat} (hr : stationRole st = some r) (s : State)
include hr

theorem exec_fetchNotices_out (hn : n < 256) (h : n = 0 ∨ 4 < n) :
    exec (.fetchNotices st [toByte n]) s = s.refuses st 0x75 .range :=
  congrArg _ (takeFrame_everyRole hr rfl (fetchNoticesCore_out hn h r _))

theorem exec_fetchNotices_in (hlo : 1 ≤ n) (hhi : n ≤ 4) : exec (.fetchNotices st [toByte n]) s =
    .next ((s.accepted.setNotices r ((s.noticesOf r).fetched n)).owe st 0x75
      { status := .done, data := fetchedBytes (s.noticesOf r).overflow ((s.noticesOf r).records.take n) }) := by
  rw [← State.accepted_noticesOf s r]
  exact congrArg _ (takeFrame_everyRole hr rfl (fetchNoticesCore_in hlo hhi r s.accepted))

end

/-- A queue whose line follows its records has a line that follows those which are left. -/
theorem fetched_attention {q : NoticeQueue} {held : Bool} (h : q.attention = true ↔ q.records ≠ [] ∧ held = false)
    (n : Nat) : (q.fetched n).attention = true ↔ q.records.drop n ≠ [] ∧ held = false := by
  have hleft : q.records.drop n ≠ [] ↔ n < q.records.length := by simp
  have hsome : n < q.records.length → q.records ≠ [] := fun hlt => List.ne_nil_of_length_pos (by omega)
  rw [hleft, NoticeQueue.fetched, Bool.and_eq_true, h, decide_eq_true_iff]
  tauto

theorem setNotices_eq (r : Role) (q : NoticeQueue) (s : State) : s.setNotices r q =
    { s with callQ := (s.setNotices r q).callQ, floorQ := (s.setNotices r q).floorQ,
             maintQ := (s.setNotices r q).maintQ } := by
  cases r <;> rfl

end Sys2Proof.Machine

open Sys2Proof Sys2Proof.Machine

/-- Settles O48: each record by the fields that spell it, and FETCH_NOTICES by what it takes from the sender's queue. -/
theorem readsReportAndFetchesRemove : Obligations.ReadsReportAndFetchesRemove := by
  intro st n r s hr hn tells flag opt streamStates causes kinds position stream clip timing pool note q fetch
  have hposition : position = s.positionFields n := by
    simp only [position, State.positionFields, State.streamPlace, itemFields, callCode_eq_idxOf, formCode_eq_idxOf,
      modeCode_eq_idxOf, linkCode_eq_idxOf, cancellerCode_eq_idxOf, admissionCode_eq_idxOf, streamCode_eq_idxOf, placeIn_eq]
    rfl
  have hstream : stream ⊆ s.streamFields n := by
    have hpending : s.pendingOfSlot n = if n < 4 then (match (s.progAt n).pending with
          | .clip c => some c
          | .empty => none
          | .none => none) else none := by
      unfold State.pendingOfSlot
      cases (s.progAt n).pending <;> rfl
    simp only [stream, State.streamFields, streamCode_eq_idxOf, funext streamKindCode_eq_idxOf, funext dirCode_eq_idxOf,
      funext causeCode_eq_idxOf, hpending]
    exact moved_subset ..
  have hclip : clip = s.clipFields n := by
    simp only [State.clipFields, clipStateCode_eq_idxOf, classCode_eq_idxOf]
    rfl
  have htiming : timing = s.timingFields := by
    simp only [State.timingFields, timingCode_eq_idxOf, maskOf, List.contains_iff_mem]
    rfl
  have hpool : pool = s.poolFields := rfl
  have hnote : note = noticeFields := by
    funext j m
    simp only [noticeFields, kindCode_eq_idxOf, funext causeCode_eq_idxOf]
    rfl
  refine ⟨fun hout => ?_, fun hin => ?_, fun hout => ?_, fun hin => ?_, fun hout => ?_, fun hin => ?_,
    ⟨_, exec_readTiming hr s, htiming ▸ timingRecord_holds s⟩, ⟨_, exec_readPool hr s, hpool ▸ poolRecord_holds s⟩,
    exec_fetchNotices_out hr s hn, fun hlo hhi => ?_⟩
  · exact exec_readPosition.trans (readFrame_out hr hn hout)
  · exact ⟨_, exec_readPosition.trans (congrArg _ (readFrame_in hr hn hin (accepted_positionRecord s n))),
      hposition ▸ positionRecord_holds s n⟩
  · exact exec_readStream.trans (readFrame_out hr hn hout)
  · exact ⟨_, exec_readStream.trans (congrArg _ (readFrame_in hr hn hin (accepted_streamRecord s n))),
      (streamRecord_holds s n).of_subset hstream⟩
  · exact exec_readClip.trans (readFrame_out hr hn hout)
  · exact ⟨_, exec_readClip.trans (congrArg _ (readFrame_in hr hn hin (accepted_clipRecord s n))),
      hclip ▸ clipRecord_holds s n⟩
  · have htaken : q.records.take n = q.records.take (min n q.records.length) := List.take_eq_take_iff.2 (by simp)
    have hleft : q.records.drop n = q.records.drop (min n q.records.length) := List.drop_eq_drop_iff.2 (by simp)
    have hcount : (q.records.take n).length = min n q.records.length := List.length_take
    have hholds := fetched_holds q.overflow (q.records.take n)
    have hown : (s.accepted.setNotices r (q.fetched n)).noticesOf r = q.fetched n := by simp
    rw [hcount, ← hnote] at hholds
    refine ⟨s.accepted.setNotices r (q.fetched n), _, exec_fetchNotices_in hr s hlo hhi, by rw [← htaken]; exact hholds,
      by rw [hown]; exact hleft, by rw [hown]; rfl, fun hlaw => ?_, fun other hother => ?_, setNotices_eq r _ _⟩
    · rw [hown, ← hleft]
      obtain ⟨_, hattention⟩ := hlaw r
      exact fetched_attention hattention n
    · simp [hother.symm]

end

section
/-! SUPPORT. The level of an integer (R94): its whole doublings and its eighths of an octave, and the statement on it. -/

namespace Sys2Proof.Machine

/-- The eighths of the octave of `z` that `z` has passed (R94). -/
def eighths (z : Nat) : Nat := (z - 2 ^ Nat.log2 z) * 8 / 2 ^ Nat.log2 z

theorem lvl_eq (z : Nat) : lvl z = 8 * Nat.log2 z + eighths z := rfl

theorem eighths_le {z : Nat} : eighths z ≤ 7 := by
  have hbelow : z < 2 ^ (Nat.log2 z + 1) := Nat.lt_log2_self
  rw [Nat.pow_succ] at hbelow
  exact Nat.le_of_lt_succ (Nat.div_lt_of_lt_mul (by omega))

/-- A doubling leaves the part of the octave that is passed. -/
theorem eighths_double {z : Nat} (hz : z ≠ 0) : eighths (2 * z) = eighths z := by
  have hnum : (2 * z - 2 ^ Nat.log2 z * 2) * 8 = 2 * ((z - 2 ^ Nat.log2 z) * 8) := by omega
  rw [eighths, Nat.log2_two_mul hz, Nat.pow_succ, hnum, Nat.mul_comm _ 2, Nat.mul_div_mul_left _ _ (by decide)]
  rfl

theorem lvl_double {z : Nat} (hz : z ≠ 0) : lvl (2 * z) = lvl z + 8 := by
  rw [lvl_eq, lvl_eq, eighths_double hz, Nat.log2_two_mul hz]
  omega

/-- In one octave the eighths grow with the integer, and a higher octave has 8 lu more than all of them (R94). -/
theorem lvl_mono {y z : Nat} (hy : y ≠ 0) (hyz : y ≤ z) : lvl y ≤ lvl z := by
  have hz : z ≠ 0 := by omega
  have hlog : Nat.log2 y ≤ Nat.log2 z := (Nat.le_log2 hz).2 ((Nat.log2_self_le hy).trans hyz)
  rw [lvl_eq, lvl_eq]
  rcases hlog.lt_or_eq with hlt | heq
  · have := eighths_le (z := y)
    omega
  · have hsame : eighths y ≤ eighths z := by
      rw [eighths, eighths, heq]
      exact Nat.div_le_div_right (Nat.mul_le_mul_right _ (Nat.sub_le_sub_right hyz _))
    omega

end Sys2Proof.Machine

open Sys2Proof Sys2Proof.Machine

/-- Settles O29: the octave and its eighths, and the bounds by the monotony of the level. -/
theorem levelOfAnInteger : Obligations.LevelOfAnInteger := by
  refine ⟨fun z hz => ?_, by decide, by decide, fun z hz => lvl_double (by omega), fun y z hy hyz => lvl_mono (by omega) hyz,
    by decide +kernel, fun e he => lvl_le (by omega) (by omega), by decide +kernel, fun w hw => ?_⟩
  · exact ⟨Nat.log2 z, eighths z, Nat.log2_self_le (by omega), Nat.lt_log2_self, rfl, eighths_le, lvl_eq z⟩
  · have htop : lvl 673672407041 = 313 := by decide +kernel
    exact htop ▸ lvl_mono (by omega) (by omega)

end

section
/-! SUPPORT. A change of one level record for each position in turn, and the statements on SET_LEVELS and SET_NEIGHBOURS
(R106 to R109). -/

namespace Sys2Proof.Machine

/-! ### A pass over the level records -/

/-- A pass over the positions in which the turn of each changes its own level record. -/
def State.levelPass (f : Nat → State → Level → Level) (s : State) : State :=
  forPositions (fun p t => t.modLev p (f p t)) s

/-- Where no turn changes what another turn does, a pass changes each record once. -/
theorem levelPass_levAt (f : Nat → State → Level → Level) (h : ∀ p q t, f p (t.modLev q (f q t)) = f p t)
    (s : State) {q : Nat} (hq : q < 16) : (s.levelPass f).levAt q = f q s (s.levAt q) := by
  refine (forPositions_entry State.levAt (fun t => ∀ p, f p t = f p s) _ (fun p => f p s) (fun p t ht q => ?_)
    (fun p q t hne => ?_) (fun p t hp ht => ?_) s (fun _ => rfl) q).trans (if_pos hq)
  · rw [h, ht]
  · simp [Ne.symm hne]
  · simp [hp, ht]

/-- What no turn changes, a pass leaves. -/
theorem levelPass_field {α : Type} (get : State → α) (f : Nat → State → Level → Level)
    (h : ∀ p t, get (t.modLev p (f p t)) = get t) (s : State) : get (s.levelPass f) = get s :=
  forPositions_field get (fun p t => t.modLev p (f p t)) h s

/-- `s` with the level records `v`. -/
def State.withLev (v : Tab 16 Level) (s : State) : State := { s with lev := v }

theorem State.eq_of_withLev {s t : State} (h : t.withLev s.lev = s.withLev s.lev) : t = { s with lev := t.lev } :=
  (congrArg (State.withLev t.lev) h :)

/-- A pass touches the level records alone. -/
theorem levelPass_eq (f : Nat → State → Level → Level) (s : State) :
    s.levelPass f = { s with lev := (s.levelPass f).lev } :=
  State.eq_of_withLev (levelPass_field (State.withLev s.lev) f (fun _ _ => rfl) s)

/-! ### SET_LEVELS -/

/-- The six parameters that SET_LEVELS stores (R107, R191). -/
def clampedParams (v b a i g d : Nat) : LevelParams :=
  { voice := min 96 v, bleed := min 96 b, attenMost := min 96 a, interval := max 1 (min 64 i), guard := min 96 g, leak := d }

/-- Every attenuation above the new `A_max` comes down to it (R107). -/
def lowerAttens (par : LevelParams) (s : State) : State :=
  ({ s with params := par } : State).levelPass (fun _ _ l => { l with atten := min l.atten par.attenMost })

theorem lowerAttens_levAt (par : LevelParams) (s : State) {p : Nat} (hp : p < 16) :
    (lowerAttens par s).levAt p = { s.levAt p with atten := min (s.levAt p).atten par.attenMost } :=
  levelPass_levAt _ (fun _ _ _ => rfl) _ hp

theorem lowerAttens_eq (par : LevelParams) (s : State) :
    lowerAttens par s = { s with params := par, lev := (lowerAttens par s).lev } := levelPass_eq _ _

/-- SET_LEVELS on a body of six fields (R106, R107). -/
theorem setLevelsCore_eq {v b a i g d : Nat} (s : State) (hv : v < 256) (hb : b < 256) (ha : a < 256) (hi : i < 256)
    (hg : g < 256) (hd : d < 256) :
    setLevelsCore [toByte v, toByte b, toByte a, toByte i, toByte g, toByte d] s =
      (lowerAttens (clampedParams v b a i g d) s,
        .clampedDone (decide (96 < v ∨ 96 < b ∨ 96 < a ∨ i = 0 ∨ 64 < i ∨ 96 < g))) := by
  have hinterval : (if i = 0 then 1 else min 64 i) = max 1 (min 64 i) := by split <;> omega
  simp only [setLevelsCore, field1_succ, field1_toByte v _ hv, field1_toByte b _ hb, field1_toByte a _ ha,
    field1_toByte i _ hi, field1_toByte g _ hg, field1_toByte d _ hd, clampTo_eq_min, hinterval, Bool.decide_or,
    Bool.or_assoc, beq_eq_decide]
  rfl

/-! ### SET_NEIGHBOURS -/

/-- A sender of another role is refused first (R188). -/
theorem takeFrame_role {st : Station} {code : Byte} {roles : List Role} {fits starting : Bool}
    {core : Role → State → State × Answer} {s : State} {r : Role} (hr : stationRole st = some r) (hout : r ∉ roles) :
    .next (takeFrame st code roles fits starting core s) = s.refuses st code .role := by
  simp [takeFrame, hr, hout, State.refuses]

/-- A body of another length is refused next (R188). -/
theorem takeFrame_length {st : Station} {code : Byte} {roles : List Role} {fits starting : Bool}
    {core : Role → State → State × Answer} {s : State} {r : Role} (hr : stationRole st = some r) (hin : r ∈ roles)
    (hfits : fits = false) : .next (takeFrame st code roles fits starting core s) = s.refuses st code .length := by
  simp [takeFrame, hr, hin, hfits, State.refuses]

/-- A list is faulty by its bytes as it is by the positions that they name (R108). -/
theorem neighbours_faulty_iff (p n : Nat) (list : List Byte) :
    (15 < p ∨ 4 < n ∨ (list.map (·.toNat)).any (fun q => decide (15 < q) || q == p) ∨ ¬ (list.map (·.toNat)).Nodup) ↔
      (15 < p ∨ 4 < n ∨ (∃ b ∈ list, 15 < b.toNat ∨ b.toNat = p) ∨ ¬ list.Nodup) := by
  rw [List.nodup_map_iff fun _ _ => BitVec.eq_of_toNat_eq]
  simp

/-- SET_NEIGHBOURS on a body with its position and count (R108, R109). -/
theorem setNeighboursCore_cons {p n : Nat} (list : List Byte) (s : State) (hp : p < 256) (hn : n < 256) :
    setNeighboursCore (toByte p :: toByte n :: list) s =
      if 15 < p ∨ 4 < n ∨ (∃ b ∈ list, 15 < b.toNat ∨ b.toNat = p) ∨ ¬ list.Nodup then (s, .bare .range)
      else (s.modLev p (fun l => { l with neighbours := list.map (·.toNat) }), .done) := by
  simp only [setNeighboursCore, neighbourList, List.drop_succ_cons, List.drop_zero, field1_succ, field1_toByte p _ hp,
    field1_toByte n _ hn, neighbours_faulty_iff]

/-- The body of SET_NEIGHBOURS fits where its count is that of its list (R108). -/
theorem neighbours_fit_iff {p n : Nat} (list : List Byte) (hn : n < 256) :
    let ps := toByte p :: toByte n :: list
    (2 ≤ ps.length && ps.length == 2 + field1 ps 1) = true ↔ list.length = n := by
  simp only [field1_succ, field1_toByte n _ hn, List.length_cons, Bool.and_eq_true, decide_eq_true_iff, beq_iff_eq]
  omega

end Sys2Proof.Machine

open Sys2Proof Sys2Proof.Machine

/-- Settles O31: the parameters by their clamp, and the attenuations by the turn of each position. -/
theorem setLevelsStoresAndLowers : Obligations.SetLevelsStoresAndLowers := by
  intro st v b a i g d s hs hv hb ha hi hg hd
  have hexec : exec (.setLevels st [toByte v, toByte b, toByte a, toByte i, toByte g, toByte d]) s = _ :=
    heeded_answer hs rfl (setLevelsCore_eq s.accepted hv hb ha hi hg hd)
  have hlev (p : Nat) (hp : p < 16) := lowerAttens_levAt (clampedParams v b a i g d) s.accepted hp
  have heq := lowerAttens_eq (clampedParams v b a i g d) s.accepted
  generalize lowerAttens (clampedParams v b a i g d) s.accepted = t at hexec hlev heq
  exact ⟨_, hexec, congrArg State.params heq, hlev, by rw [heq]; rfl⟩

/-- Settles O32: the checks of R188 and R108 in their order, on the accepted frame. -/
theorem setNeighboursReplacesTheList : Obligations.SetNeighboursReplacesTheList := by
  refine ⟨fun st r ps s hr hne => takeFrame_role hr (by simpa using hne), ?_⟩
  intro st p n list s hs hp hn faulty
  have hfit := neighbours_fit_iff (p := p) list hn
  have hcore := setNeighboursCore_cons list s.accepted hp hn
  refine ⟨fun hlen => ?_, fun hlen hbad => ?_, fun hlen hgood => ?_⟩
  · exact takeFrame_length hs.1 (by simp) (Bool.eq_false_iff.2 fun h => hlen (hfit.1 h))
  · exact heeded_refusal hs (hfit.2 hlen) (hcore.trans (if_pos hbad))
  · exact heeded_answer hs (hfit.2 hlen) (hcore.trans (if_neg hgood))

end

section
/-! SUPPORT. The end of a block, record by record (Table 6-5): what each pass over the positions makes of a level record,
and what the whole makes of the tables. -/

namespace Sys2Proof.Machine

/-! ### Level, noise floor and voice (R97 to R99) -/

section
variable (par : LevelParams) (up : Bool) (l : Level)

theorem measure_level : (l.measure par up).level = if up then lvl (l.energy + 1) else 0 := rfl

/-- The noise floor falls to a lower level at once (R98). -/
theorem measure_floor_falls (h : (l.measure par up).level < l.floor) :
    (l.measure par up).floor = (l.measure par up).level ∧ (l.measure par up).rise = 0 := by
  rw [measure_level] at h ⊢
  simp [Level.measure, h]

/-- Below the interval the floor waits (R98). -/
theorem measure_floor_waits (h : l.floor ≤ (l.measure par up).level) (hrise : l.rise + 1 < par.interval) :
    (l.measure par up).floor = l.floor ∧ (l.measure par up).rise = l.rise + 1 := by
  rw [measure_level] at h
  simp [Level.measure, Nat.not_lt.2 h, Nat.not_le.2 hrise]

/-- At the interval the floor rises by 1, up to 287 (R98). -/
theorem measure_floor_rises (hfloor : l.floor ≤ 287) (h : l.floor ≤ (l.measure par up).level)
    (hrise : par.interval ≤ l.rise + 1) :
    (l.measure par up).floor = min 287 (l.floor + 1) ∧ (l.measure par up).rise = 0 := by
  have hmin : (if l.floor < 287 then l.floor + 1 else l.floor) = min 287 (l.floor + 1) := by split <;> omega
  rw [measure_level] at h
  simp [Level.measure, Nat.not_lt.2 h, hrise, hmin]

/-- Raw voice stands at V above the floor or higher (R99). -/
theorem measure_raw_iff :
    (l.measure par up).raw = true ↔ (l.measure par up).floor + par.voice ≤ (l.measure par up).level := decide_eq_true_iff

theorem measure_hang : (l.measure par up).hang = if (l.measure par up).raw then 10 else l.hang - 1 := rfl

theorem measure_voice_iff :
    (l.measure par up).voice = true ↔ (l.measure par up).raw = true ∨ 0 < (l.measure par up).hang := by
  simp [Level.measure]

end

/-- The record with its bleed flag set to the outcome of the bleed test (R101). -/
def Level.withBleed (b : Bool) (l : Level) : Level := { l with bleed := b }

/-! ### Attenuation and whisper guard (R102 to R104) -/

/-- The attenuation goes to its target by 16 lu down or 2 lu up, and not past it (R102). -/
theorem slew_atten (par : LevelParams) (l : Level) :
    let target := if l.voice = true ∧ l.bleed = false then 0 else par.attenMost
    (l.slew par).atten = if target < l.atten then max target (l.atten - 16) else min target (l.atten + 2) := by
  have htarget : (if l.voice && !l.bleed then 0 else par.attenMost) =
      if l.voice = true ∧ l.bleed = false then 0 else par.attenMost := by simp
  simp only [Level.slew, htarget]
  split_ifs <;> omega

section
variable (l : Level)

/-- The guard stands while the caller does not hear the open microphone (R104). -/
theorem guardStep_closed (leak : Bool) : l.guardStep false leak = l := rfl

/-- A leak raises the guard by 4 lu, up to 48 (R104). -/
theorem guardStep_leak : l.guardStep true true = { l with guard := min 48 (l.guard + 4), fall := 0 } := rfl

theorem guardStep_rest (h : l.guard = 0) : l.guardStep true false = l := by simp [Level.guardStep, h]

/-- Below 40 blocks without a leak the guard waits (R104). -/
theorem guardStep_waits (h : 0 < l.guard) (hfall : l.fall < 39) :
    l.guardStep true false = { l with fall := l.fall + 1 } := by
  simp [Level.guardStep, Nat.ne_of_gt h, show ¬ 40 ≤ l.fall + 1 by omega]

/-- At 40 blocks without a leak the guard falls by 1 lu (R104). -/
theorem guardStep_falls (h : 0 < l.guard) (hfall : 39 ≤ l.fall) :
    l.guardStep true false = { l with guard := l.guard - 1, fall := 0 } := by
  simp [Level.guardStep, Nat.ne_of_gt h, hfall]

/-- The guard's step by the caller's hearing and the leak test (R104). -/
theorem guardStep_spec {opened leak : Bool} {hears leaks : Prop} (hopened : opened = true ↔ hears)
    (hleak : leak = true ↔ leaks) :
    let g := l.guardStep opened leak
    (¬ hears → g.guard = l.guard ∧ g.fall = l.fall) ∧
    (hears → leaks → g.guard = min 48 (l.guard + 4) ∧ g.fall = 0) ∧
    (hears → ¬ leaks → l.guard = 0 → g.guard = 0 ∧ g.fall = l.fall) ∧
    (hears → ¬ leaks → 0 < l.guard → l.fall < 39 → g.guard = l.guard ∧ g.fall = l.fall + 1) ∧
    (hears → ¬ leaks → 0 < l.guard → 39 ≤ l.fall → g.guard = l.guard - 1 ∧ g.fall = 0) := by
  rw [← hopened, ← hleak]
  cases opened with
  | false => simp [guardStep_closed]
  | true =>
    cases leak with
    | true => simp [guardStep_leak]
    | false =>
      refine ⟨by simp, by simp, fun _ _ h => ?_, fun _ _ h hfall => ?_, fun _ _ h hfall => ?_⟩
      · simp [guardStep_rest l h, h]
      · simp [guardStep_waits l h hfall]
      · simp [guardStep_falls l h hfall]

/-- The guard's step reads and writes the guard and its fall count alone. -/
theorem guardStep_eq {m l : Level} (hguard : m.guard = l.guard) (hfall : m.fall = l.fall) (opened leak : Bool) :
    m.guardStep opened leak =
      { m with guard := (l.guardStep opened leak).guard, fall := (l.guardStep opened leak).fall } := by
  unfold Level.guardStep
  rw [hguard, hfall]
  split_ifs <;> simp only [← hguard, ← hfall]

end

/-! ### The passes over the positions -/

/-- The first pass: level, noise floor and voice of every position (R97 to R99). -/
def State.measured (s : State) : State :=
  s.levelPass (fun p t => Level.measure t.params ((t.linkAt p).state == .up))

/-- The second pass: the bleed test of every position (R101). -/
def State.bleedTested (s : State) : State := s.levelPass (fun p t => Level.withBleed (t.bleeding p))

/-- The third pass: the attenuation of every position (R102). -/
def State.slewed (s : State) : State := s.levelPass (fun _ t => Level.slew t.params)

/-- The fourth pass: the whisper guard of every position (R103, R104). -/
def State.guardStepped (s : State) : State :=
  s.levelPass (fun p t => Level.guardStep (t.openTrunk p) (t.leaking p))

theorem blockEndLevels_eq (s : State) :
    blockEndLevels s = forPositions restartTotals s.measured.bleedTested.slewed.guardStepped := rfl

/-- The bleed test reads raw voice, level and neighbours of the level records. -/
theorem bleeding_modLev {s : State} {q : Nat} {f : Level → Level} (hraw : ∀ l, (f l).raw = l.raw)
    (hlevel : ∀ l, (f l).level = l.level) (hneighbours : ∀ l, (f l).neighbours = l.neighbours) (p : Nat) :
    (s.modLev q f).bleeding p = s.bleeding p := by
  have hentry (i : Nat) : ((s.modLev q f).levAt i).raw = (s.levAt i).raw ∧
      ((s.modLev q f).levAt i).level = (s.levAt i).level ∧
      ((s.modLev q f).levAt i).neighbours = (s.levAt i).neighbours := by
    rw [State.modLev_levAt]
    split
    next h =>
      obtain ⟨rfl, _⟩ := h
      exact ⟨hraw _, hlevel _, hneighbours _⟩
    next => exact ⟨rfl, rfl, rfl⟩
  simp only [State.bleeding, hentry, State.modLev_params]

/-- The leak test reads level, floor and the count of adapting arrivals of the level records. -/
theorem leaking_modLev {s : State} {q : Nat} {f : Level → Level} (hlevel : ∀ l, (f l).level = l.level)
    (hfloor : ∀ l, (f l).floor = l.floor) (hadapting : ∀ l, (f l).adapting = l.adapting) (p : Nat) :
    (s.modLev q f).leaking p = s.leaking p := by
  have hentry : ((s.modLev q f).levAt p).level = (s.levAt p).level ∧
      ((s.modLev q f).levAt p).floor = (s.levAt p).floor ∧
      ((s.modLev q f).levAt p).adapting = (s.levAt p).adapting := by
    rw [State.modLev_levAt]
    split
    next h =>
      obtain ⟨rfl, _⟩ := h
      exact ⟨hlevel _, hfloor _, hadapting _⟩
    next => exact ⟨rfl, rfl, rfl⟩
  obtain ⟨hl, hf, ha⟩ := hentry
  simp only [State.leaking, hl, hf, ha, State.modLev_mixAt, State.modLev_params]
  rfl

theorem bleeding_withBleed (s : State) (q : Nat) (b : Bool) (p : Nat) :
    (s.modLev q (Level.withBleed b)).bleeding p = s.bleeding p :=
  bleeding_modLev (f := Level.withBleed b) (fun _ => rfl) (fun _ => rfl) (fun _ => rfl) p

theorem leaking_withBleed (s : State) (q : Nat) (b : Bool) (p : Nat) :
    (s.modLev q (Level.withBleed b)).leaking p = s.leaking p :=
  leaking_modLev (f := Level.withBleed b) (fun _ => rfl) (fun _ => rfl) (fun _ => rfl) p

theorem leaking_slew (s : State) (q : Nat) (par : LevelParams) (p : Nat) :
    (s.modLev q (Level.slew par)).leaking p = s.leaking p :=
  leaking_modLev (f := Level.slew par) (fun _ => rfl) (fun _ => rfl) (fun _ => rfl) p

theorem leaking_guardStep (s : State) (q : Nat) (opened leak : Bool) (p : Nat) :
    (s.modLev q (Level.guardStep opened leak)).leaking p = s.leaking p :=
  leaking_modLev (fun l => by rw [guardStep_eq rfl rfl]) (fun l => by rw [guardStep_eq rfl rfl])
    (fun l => by rw [guardStep_eq rfl rfl]) p

theorem measured_levAt (s : State) {p : Nat} (hp : p < 16) :
    s.measured.levAt p = (s.levAt p).measure s.params ((s.linkAt p).state == .up) :=
  levelPass_levAt _ (fun _ _ _ => rfl) s hp

theorem bleedTested_levAt (s : State) {p : Nat} (hp : p < 16) :
    s.bleedTested.levAt p = (s.levAt p).withBleed (s.bleeding p) :=
  levelPass_levAt _ (fun p _ _ => congrArg Level.withBleed (bleeding_withBleed _ _ _ p)) s hp

theorem slewed_levAt (s : State) {p : Nat} (hp : p < 16) : s.slewed.levAt p = (s.levAt p).slew s.params :=
  levelPass_levAt _ (fun _ _ _ => rfl) s hp

theorem guardStepped_levAt (s : State) {p : Nat} (hp : p < 16) :
    s.guardStepped.levAt p = (s.levAt p).guardStep (s.openTrunk p) (s.leaking p) :=
  levelPass_levAt _ (fun p _ t => congrArg (Level.guardStep (t.openTrunk p)) (leaking_guardStep _ _ _ _ p)) s hp

/-- The leak test stands through the passes between the first and the fourth (Table 6-5). -/
theorem leaking_slewed_bleedTested (s : State) (p : Nat) : s.bleedTested.slewed.leaking p = s.leaking p :=
  (levelPass_field (State.leaking · p) _ (fun q t => leaking_slew t q _ p) s.bleedTested).trans
    (levelPass_field (State.leaking · p) _ (fun q t => leaking_withBleed t q _ p) s)

/-! ### The whole -/

/-- The level record that the end of a block makes of `l`, from the link, the bleed test, the caller's hearing and the leak
test of its position (Table 6-5). -/
def Level.blockEnd (par : LevelParams) (up bleed opened leak : Bool) (l : Level) : Level :=
  let tested := (l.measure par up).withBleed bleed
  { tested with atten := (tested.slew par).atten, guard := (l.guardStep opened leak).guard,
                fall := (l.guardStep opened leak).fall, energy := 0, adapting := 0 }

/-- The record goes through the four passes, and its totals restart. -/
theorem blockEnd_eq (par : LevelParams) (up bleed opened leak : Bool) (l : Level) :
    l.blockEnd par up bleed opened leak =
      { (((l.measure par up).withBleed bleed).slew par).guardStep opened leak with energy := 0, adapting := 0 } := by
  rw [guardStep_eq (m := ((l.measure par up).withBleed bleed).slew par) (l := l) rfl rfl]
  rfl

/-- What no change of a level record changes, the passes leave. -/
theorem measured_field {α : Type} (get : State → α) (h : ∀ p f t, get (t.modLev p f) = get t) (s : State) :
    get s.measured = get s := levelPass_field get _ (fun _ _ => h _ _ _) s

theorem slewed_bleedTested_field {α : Type} (get : State → α) (h : ∀ p f t, get (t.modLev p f) = get t) (s : State) :
    get s.bleedTested.slewed = get s :=
  (levelPass_field get _ (fun _ _ => h _ _ _) s.bleedTested).trans (levelPass_field get _ (fun _ _ => h _ _ _) s)

theorem guardStepped_field {α : Type} (get : State → α) (h : ∀ p f t, get (t.modLev p f) = get t) (s : State) :
    get s.guardStepped = get s := levelPass_field get _ (fun _ _ => h _ _ _) s

/-- The block totals of every position restart, and nothing else of its records changes (R54, R96). -/
theorem restartTotals_entries (s : State) {q : Nat} (hq : q < 16) :
    (forPositions restartTotals s).levAt q = { s.levAt q with energy := 0, adapting := 0 } ∧
      (forPositions restartTotals s).mixAt q = { s.mixAt q with energy := 0, presence := 0 } := by
  constructor
  · refine (forPositions_entry State.levAt (fun _ => True) _ (fun _ l => { l with energy := 0, adapting := 0 })
      (fun _ _ h => h) (fun p q t hne => ?_) (fun p t hp _ => ?_) s trivial q).trans (if_pos hq)
    · simp [restartTotals, Ne.symm hne]
    · simp [restartTotals, hp]
  · refine (forPositions_entry State.mixAt (fun _ => True) _ (fun _ m => { m with energy := 0, presence := 0 })
      (fun _ _ h => h) (fun p q t hne => ?_) (fun p t hp _ => ?_) s trivial q).trans (if_pos hq)
    · simp [restartTotals, Ne.symm hne]
    · simp [restartTotals, hp]

theorem blockEndLevels_mixAt (s : State) {p : Nat} (hp : p < 16) :
    (blockEndLevels s).mixAt p = { s.mixAt p with energy := 0, presence := 0 } := by
  obtain ⟨_, hmix⟩ := restartTotals_entries s.measured.bleedTested.slewed.guardStepped hp
  rw [blockEndLevels_eq, hmix, guardStepped_field (State.mixAt · p) (fun _ _ _ => rfl),
    slewed_bleedTested_field (State.mixAt · p) (fun _ _ _ => rfl), measured_field (State.mixAt · p) (fun _ _ _ => rfl)]

theorem blockEndLevels_levAt (s : State) {p : Nat} (hp : p < 16) :
    (blockEndLevels s).levAt p = (s.levAt p).blockEnd s.params ((s.linkAt p).state == .up) (s.measured.bleeding p)
      (s.openTrunk p) (s.measured.leaking p) := by
  have hpar : s.measured.bleedTested.params = s.params :=
    (levelPass_field State.params _ (fun _ _ => rfl) s.measured).trans (measured_field State.params (fun _ _ _ => rfl) s)
  have hopen : s.measured.bleedTested.slewed.openTrunk p = s.openTrunk p :=
    (slewed_bleedTested_field (State.openTrunk · p) (fun _ _ _ => rfl) s.measured).trans
      (measured_field (State.openTrunk · p) (fun _ _ _ => rfl) s)
  obtain ⟨hlev, _⟩ := restartTotals_entries s.measured.bleedTested.slewed.guardStepped hp
  rw [blockEndLevels_eq, hlev, guardStepped_levAt _ hp, leaking_slewed_bleedTested, hopen, slewed_levAt _ hp, hpar,
    bleedTested_levAt _ hp, measured_levAt _ hp, blockEnd_eq]

/-- A position bleeds where a neighbour's raw voice stands B above its level or higher (R101). -/
theorem measured_bleeding_iff (s : State) {p : Nat} (hp : p < 16) (hneighbours : ∀ j ∈ (s.levAt p).neighbours, j < 16) :
    s.measured.bleeding p = true ↔
      ∃ j ∈ (s.levAt p).neighbours, ((blockEndLevels s).levAt j).raw = true ∧
        ((blockEndLevels s).levAt p).level + s.params.bleed ≤ ((blockEndLevels s).levAt j).level := by
  have hentry (j : Nat) (hj : j < 16) : (s.measured.levAt j).raw = ((blockEndLevels s).levAt j).raw ∧
      (s.measured.levAt j).level = ((blockEndLevels s).levAt j).level := by
    rw [measured_levAt s hj, blockEndLevels_levAt s hj]
    exact ⟨rfl, rfl⟩
  have hown : (s.measured.levAt p).neighbours = (s.levAt p).neighbours := by
    rw [measured_levAt s hp]
    rfl
  simp only [State.bleeding, List.any_eq_true, Bool.and_eq_true, decide_eq_true_iff, hown,
    measured_field State.params (fun _ _ _ => rfl), (hentry p hp).2]
  refine exists_congr fun j => and_congr_right fun hj => ?_
  obtain ⟨hraw, hlevel⟩ := hentry j (hneighbours j hj)
  rw [hraw, hlevel]

theorem openTrunk_iff (s : State) (p : Nat) :
    s.openTrunk p = true ↔ (s.posAt p).call = .connected ∧ (s.posAt p).ramp = 40 := by
  simp [State.openTrunk, Config.rampTop]

/-- The whisper leaks where it sounds, the canceller adapts, the caller hears the microphone, and the level is near the
whisper's and G above the floor (R103). -/
theorem measured_leaking_iff (s : State) {p : Nat} (hp : p < 16) :
    s.measured.leaking p = true ↔
      20 ≤ (s.mixAt p).presence ∧ 20 ≤ (s.levAt p).adapting ∧
        ((s.posAt p).call = .connected ∧ (s.posAt p).ramp = 40) ∧
        (lvl ((s.mixAt p).energy + 1) : Int) - s.params.leak ≤ ((blockEndLevels s).levAt p).level ∧
        ((blockEndLevels s).levAt p).floor + s.params.guard ≤ ((blockEndLevels s).levAt p).level := by
  rw [← openTrunk_iff, blockEndLevels_levAt s hp]
  simp only [State.leaking, measured_levAt s hp, measured_field (State.mixAt · p) (fun _ _ _ => rfl),
    measured_field State.params (fun _ _ _ => rfl), measured_field (State.openTrunk · p) (fun _ _ _ => rfl),
    Bool.and_eq_true, decide_eq_true_iff, and_assoc]
  rfl

end Sys2Proof.Machine
end

section
/-! SUPPORT. The block boundary, and the statement on the end of a block (R97 to R104, R154, R178, R182). -/

namespace Sys2Proof.Machine

/-- A block that is complete waits for the word of the port that is next (R154). -/
theorem blockBoundary_nextWord {s : State} (hframes : 40 ≤ s.tmn.frames) {q : Fin 16} (hq : q.val = s.words) :
    blockBoundary (headsetWordArrival q 0 s) = blockBoundary s := by
  have harrival : headsetWordArrival q 0 s = takeWord s.words 0 s := by simp [headsetWordArrival, hq, fillWords]
  have hmissing : missingWords (takeWord s.words 0 s) = missingWords s := by
    have hleft : 16 - s.words = 16 - (s.words + 1) + 1 := by omega
    rw [missingWords, missingWords, hleft]
    rfl
  have hcomplete : s.blockComplete = true := decide_eq_true hframes
  have hcomplete' : (takeWord s.words 0 s).blockComplete = true := by
    simpa [State.blockComplete] using hcomplete
  rw [harrival, blockBoundary, blockBoundary, if_pos hcomplete, if_pos hcomplete', hmissing]

theorem blockBoundary_complete {s : State} (hframes : 40 ≤ s.tmn.frames) (hwords : 16 ≤ s.words) :
    blockBoundary s = graceExpiry (blockWork s) := by
  rcases blockBoundary_cases s with ⟨_, h⟩ | ⟨h, _⟩
  · rw [h, missingWords_none s hwords]
  · omega

/-- The Timing Monitor when a block has ended (R178, R182). -/
def Timing.blockEnded (t : Timing) : Timing :=
  Timing.countGrace { t with blockCount := if t.blockCount = 65535 then 0 else t.blockCount + 1, frames := 0 }

theorem blockWork_eq_blockEndLevels (s : State) : blockWork s = blockEndLevels (s.modTmn Timing.blockEnded) := rfl

theorem blockWork_tmn (s : State) :
    (blockWork s).tmn =
      { s.tmn with blockCount := if s.tmn.blockCount = 65535 then 0 else s.tmn.blockCount + 1, frames := 0,
                   elapsed := if s.tmn.running = true ∧ s.tmn.elapsed < 5100 then s.tmn.elapsed + 1
                     else s.tmn.elapsed } := by
  have hwork : (blockWork s).tmn = s.tmn.blockEnded := by simp [blockWork_eq_blockEndLevels]
  rw [hwork]
  simp only [Timing.blockEnded, Timing.countGrace, Bool.and_eq_true, decide_eq_true_iff]
  rfl

theorem blockWork_eq (s : State) :
    blockWork s = { s with tmn := (blockWork s).tmn, lev := (blockWork s).lev, mix := (blockWork s).mix } := by
  obtain ⟨hpending, hmode, hheld, hpos, hlink, hec, hpool, hparams, hclip, hslot, hprog, hqueue, hwait, hstore, hhwy,
    hwords, hport, hcall, hfloor, hmaint⟩ := blockWork_keeps s
  generalize blockWork s = t at *
  cases t
  simp only at *
  subst_vars
  rfl

/-- The state after the first pass of a block end, which the bleed and leak tests read. -/
def State.blockMeasured (s : State) : State := (s.modTmn Timing.blockEnded).measured

section
variable (s : State) {p : Nat} (hp : p < 16)
include hp

theorem blockWork_mixAt : (blockWork s).mixAt p = { s.mixAt p with energy := 0, presence := 0 } :=
  blockEndLevels_mixAt (s.modTmn Timing.blockEnded) hp

theorem blockWork_levAt : (blockWork s).levAt p =
    (s.levAt p).blockEnd s.params ((s.linkAt p).state == .up) (s.blockMeasured.bleeding p) (s.openTrunk p)
      (s.blockMeasured.leaking p) :=
  blockEndLevels_levAt (s.modTmn Timing.blockEnded) hp

theorem blockWork_level : ((blockWork s).levAt p).level =
    if (s.linkAt p).state = .up then lvl ((s.levAt p).energy + 1) else 0 := by
  rw [blockWork_levAt s hp]
  exact (measure_level s.params _ _).trans (by simp)

theorem blockMeasured_bleeding_iff (hneighbours : ∀ j ∈ (s.levAt p).neighbours, j < 16) :
    s.blockMeasured.bleeding p = true ↔
      ∃ j ∈ (s.levAt p).neighbours, ((blockWork s).levAt j).raw = true ∧
        ((blockWork s).levAt p).level + s.params.bleed ≤ ((blockWork s).levAt j).level :=
  measured_bleeding_iff (s.modTmn Timing.blockEnded) hp hneighbours

theorem blockMeasured_leaking_iff :
    s.blockMeasured.leaking p = true ↔
      20 ≤ (s.mixAt p).presence ∧ 20 ≤ (s.levAt p).adapting ∧
        ((s.posAt p).call = .connected ∧ (s.posAt p).ramp = 40) ∧
        (lvl ((s.mixAt p).energy + 1) : Int) - s.params.leak ≤ ((blockWork s).levAt p).level ∧
        ((blockWork s).levAt p).floor + s.params.guard ≤ ((blockWork s).levAt p).level :=
  measured_leaking_iff (s.modTmn Timing.blockEnded) hp

end

end Sys2Proof.Machine

open Sys2Proof Sys2Proof.Machine

/-- Settles O30: the passes of the block end record by record, after the words of the frame and before the grace timer. -/
theorem blockEndsMeasureAndSlew : Obligations.BlockEndsMeasureAndSlew := by
  intro s hlaw
  refine ⟨fun hframes => ?_, fun hframes q hq => ?_, fun hframes hwords => ⟨blockWork s, ?_, blockWork_tmn s, blockWork_eq s,
    fun p hp => ?_⟩⟩
  · rcases blockBoundary_cases s with ⟨h, _⟩ | ⟨_, h⟩
    · omega
    · exact congrArg Host.Outcome.next h
  · exact congrArg Host.Outcome.next (blockBoundary_nextWord hframes hq).symm
  · have hexec : exec .blockBoundary s = .next (graceExpiry (blockWork s)) :=
      congrArg Host.Outcome.next (blockBoundary_complete hframes hwords)
    have hover := graceOver_iff (blockWork s).tmn
    refine ⟨fun hno => hexec.trans (congrArg _ ?_), fun hat => hexec.trans (congrArg _ ?_)⟩
    · exact if_neg fun h => hno (hover.1 h)
    · exact (if_pos (hover.2 hat)).symm
  · obtain ⟨_, hlevels⟩ := hlaw
    obtain ⟨hfloor, _, _, _, _, _, _, _, _, hneighbours⟩ := hlevels p hp
    have hmix := blockWork_mixAt s hp
    have hbleed := blockMeasured_bleeding_iff s hp fun j hj => (hneighbours j hj).1
    have hguard := guardStep_spec (s.levAt p) (openTrunk_iff s p) (blockMeasured_leaking_iff s hp)
    have hrecord := blockWork_levAt s hp
    have hatten := slew_atten s.params
      (((s.levAt p).measure s.params ((s.linkAt p).state == .up)).withBleed (s.blockMeasured.bleeding p))
    rw [hrecord] at hbleed hguard
    obtain ⟨hclosed, hleaks, hrest, hwaits, hfalls⟩ := hguard
    intro par l v m level
    have hlevel : level = v.level := (blockWork_level s hp).symm
    have hv : v = _ := hrecord
    clear_value level v
    subst hlevel hv
    intro opened target leaks
    exact ⟨rfl, measure_floor_falls par _ l, measure_floor_waits par _ l, measure_floor_rises par _ l hfloor,
      measure_raw_iff par _ l, measure_hang par _ l, measure_voice_iff par _ l, hbleed, hatten, hclosed, hleaks,
      hrest, hwaits, hfalls, rfl, rfl, rfl, hmix⟩

end

section
/-! SUPPORT. The store link by what each activity allows (Table 8-2), and how its changes keep it and the fetch that is under
way (R119, R139 to R147). -/

namespace Sys2Proof.Machine

/-! ### Readings of one entry -/

theorem slotAt_congr {s t : State} (h : t.slot = s.slot) (i : Nat) : t.slotAt i = s.slotAt i := congrArg (fun v => tget v i) h
theorem clipAt_congr {s t : State} (h : t.clip = s.clip) (c : Nat) : t.clipAt c = s.clipAt c := congrArg (fun v => tget v c) h
theorem queueAt_congr {s t : State} (h : t.queue = s.queue) (p : Nat) : t.queueAt p = s.queueAt p :=
  congrArg (fun v => tget v p) h

/-! ### What an activity allows -/

/-- The phases in which the operation may stand while the link has this activity; none where there may be no operation. -/
def LinkActivity.phases : LinkActivity → List (Option StepPhase)
  | .idle => [none, some .notStarted, some .waitReady]
  | .fetch | .read => [none, some .notStarted, some .suspending, some .suspended]
  | .program => [some .programming]
  | .eraseRunning => [some .erasing]
  | .eraseSuspended => [some .suspending, some .suspended]

/-- The phase of the operation in flight. -/
def Store.phase (u : Store) : Option StepPhase := u.op.map (·.phase)

/-- A fetch or a read holds the link exactly in its activity, and the operation stands in a phase that the activity allows. -/
structure Store.Linked (u : Store) : Prop where
  fetch : u.fetch.isSome ↔ u.activity = .fetch
  read : u.readHolds = true ↔ u.activity = .read
  phase : u.phase ∈ u.activity.phases

theorem storeLinkLaw_iff (s : State) : StoreLinkLaw s ↔ s.store.Linked := by
  have hiff : s.store.Linked ↔ (s.store.fetch.isSome ↔ s.store.activity = .fetch) ∧
      (s.store.readHolds = true ↔ s.store.activity = .read) ∧ s.phase ∈ s.store.activity.phases :=
    ⟨fun h => ⟨h.fetch, h.read, h.phase⟩, fun ⟨hfetch, hread, hphase⟩ => ⟨hfetch, hread, hphase⟩⟩
  rw [hiff]
  unfold StoreLinkLaw
  cases s.store.activity <;> simp [LinkActivity.phases]

section
variable {u v : Store}

theorem Store.Linked.fetch_none (h : u.Linked) (ha : u.activity ≠ .fetch) : u.fetch = none := by
  have := mt h.fetch.1 ha
  simpa using this

theorem Store.Linked.readHolds_false (h : u.Linked) (ha : u.activity ≠ .read) : u.readHolds = false := by
  have := mt h.read.1 ha
  simpa using this

/-- Nothing but the operation or the wait for it holds the link. -/
theorem Store.Linked.of_unheld (hfetch : v.fetch = none) (hread : v.readHolds = false) (hnf : v.activity ≠ .fetch)
    (hnr : v.activity ≠ .read) (hphase : v.phase ∈ v.activity.phases) : v.Linked :=
  ⟨by simp [hfetch, hnf], by simp [hread, hnr], hphase⟩

/-- What holds the link, and the phase, stand: only the data of an operation, a clock or a request changes. -/
theorem Store.Linked.of_same (h : u.Linked) (hactivity : v.activity = u.activity) (hfetch : v.fetch.isSome = u.fetch.isSome)
    (hread : v.readHolds = u.readHolds) (hphase : v.phase = u.phase) : v.Linked :=
  ⟨by rw [hactivity, hfetch, h.fetch], by rw [hactivity, hread, h.read], by rw [hactivity, hphase]; exact h.phase⟩

/-- An activity that the operation's phase does not exclude takes the place of another, and holds the link as that did. -/
theorem Store.Linked.of_phase (h : u.Linked) (hactivity : v.activity = u.activity) (hfetch : v.fetch = u.fetch)
    (hread : v.read = u.read) (hphase : v.phase ∈ u.activity.phases) : v.Linked :=
  ⟨by rw [hactivity, hfetch, h.fetch], by rw [hactivity, Store.readHolds, hread]; exact h.read, by rw [hactivity]; exact hphase⟩

/-! ### A fetch or a read takes the link and lets it go -/

theorem Store.released_eq (u : Store) :
    u.released = if u.phase = some .suspending ∨ u.phase = some .suspended then .eraseSuspended else .idle := by
  unfold Store.released Store.phase
  cases u.op <;> simp

/-- What held the link lets it go, to a paused erase or to nobody (R141, R144, R147). -/
theorem Store.Linked.of_release (h : u.Linked) (ha : u.activity = .fetch ∨ u.activity = .read)
    (hactivity : v.activity = u.released) (hfetch : v.fetch = none) (hread : v.readHolds = false) (hphase : v.phase = u.phase) :
    v.Linked := by
  have hin : u.phase ∈ LinkActivity.phases .fetch := by
    have := h.phase
    rcases ha with ha | ha <;> rwa [ha] at this
  rw [Store.released_eq] at hactivity
  refine .of_unheld hfetch hread ?_ ?_ ?_
  all_goals
    rw [hactivity]
    split
  · simp
  · simp
  · simp
  · simp
  next hpaused => rw [hphase]; simpa [LinkActivity.phases] using hpaused
  next hrun =>
    rw [hphase]
    simp only [LinkActivity.phases, List.mem_cons, List.not_mem_nil, or_false] at hin ⊢
    tauto

theorem Store.readHolds_iff (u : Store) : u.readHolds = true ↔ ∃ r, u.read = some r ∧ r.holding = true := by
  unfold Store.readHolds
  cases u.read <;> simp

theorem Store.dropRead_read (u : Store) : u.dropRead.read = none := by
  unfold Store.dropRead
  cases h : u.read <;> simp [h]

theorem Store.dropRead_fields (u : Store) : u.dropRead.fetch = u.fetch ∧ u.dropRead.op = u.op ∧ u.dropRead.startup = u.startup ∧
    u.dropRead.lastServed = u.lastServed ∧ u.dropRead.request = u.request := by
  unfold Store.dropRead
  cases u.read <;> simp

theorem Store.Linked.dropRead (h : u.Linked) : u.dropRead.Linked := by
  obtain ⟨hfetch, hop, _⟩ := u.dropRead_fields
  have hread : u.dropRead.readHolds = false := by simp [Store.readHolds, u.dropRead_read]
  have hphase : u.dropRead.phase = u.phase := by rw [Store.phase, hop]; rfl
  cases hholds : u.readHolds with
  | true =>
    have ha := h.read.1 hholds
    obtain ⟨r, hr, hholding⟩ := u.readHolds_iff.1 hholds
    refine h.of_release (.inr ha) ?_ (hfetch.trans (h.fetch_none (by simp [ha]))) hread hphase
    simp [Store.dropRead, hr, hholding]
  | false =>
    refine h.of_same ?_ (by rw [hfetch]) (hread.trans hholds.symm) hphase
    unfold Store.dropRead
    cases hr : u.read with
    | none => rfl
    | some r =>
      have : r.holding = false := by simpa [Store.readHolds, hr] using hholds
      simp [this]

theorem Store.Linked.endFetch (h : u.Linked) (hf : u.fetch.isSome) : u.endFetch.Linked := by
  have ha := h.fetch.1 hf
  exact h.of_release (.inl ha) rfl rfl (h.readHolds_false (by simp [ha])) rfl

theorem Store.suspendAnswered_phase (u : Store) :
    u.suspendAnswered.phase = if u.phase = some .suspending then some .suspended else u.phase := by
  unfold Store.suspendAnswered Store.phase
  cases u.op with
  | none => rfl
  | some o => by_cases ho : o.phase = .suspending <;> simp [ho]

theorem Store.Linked.suspendAnswered (h : u.Linked) : u.suspendAnswered.Linked := by
  refine h.of_phase rfl rfl rfl ?_
  have hphase := h.phase
  rw [Store.suspendAnswered_phase]
  split
  next hsuspending =>
    rw [hsuspending] at hphase
    cases ha : u.activity <;> simp_all [LinkActivity.phases]
  next => exact hphase

theorem Store.suspendErase_fields (u : Store) : u.suspendErase.fetch = u.fetch ∧ u.suspendErase.read = u.read ∧
    u.suspendErase.startup = u.startup ∧ u.suspendErase.lastServed = u.lastServed ∧ u.suspendErase.activity = u.activity := by
  unfold Store.suspendErase
  cases u.op with
  | none => simp
  | some o => dsimp only; split <;> simp

/-- The link is free for a fetch or a read (R140, R153). -/
theorem Store.linkFree_iff (u : Store) : u.linkFree = true ↔
    (u.activity = .idle ∨ u.activity = .eraseRunning ∨ u.activity = .eraseSuspended) ∧ u.phase ≠ some .waitReady := by
  simp [Store.linkFree, Store.phase, or_assoc]

/-- The phase in which a fetch or a read that takes the free link finds the operation (R144). -/
theorem Store.Linked.taken_phase (h : u.Linked) (hfree : u.linkFree = true) :
    u.suspendErase.phase ∈ LinkActivity.phases .fetch := by
  obtain ⟨ha, hwait⟩ := u.linkFree_iff.1 hfree
  have hphase := h.phase
  unfold Store.suspendErase
  unfold Store.phase at *
  cases hop : u.op with
  | none => simp [LinkActivity.phases, hop]
  | some o =>
    rw [hop] at hphase hwait
    dsimp only
    rcases ha with ha | ha | ha
    · rw [ha] at hphase
      simp_all [LinkActivity.phases]
    · simp [ha, LinkActivity.phases]
    · rw [ha] at hphase
      simp_all [LinkActivity.phases]

theorem Store.linkFree_activity (h : u.linkFree = true) : u.activity ≠ .fetch ∧ u.activity ≠ .read := by
  obtain ⟨ha, _⟩ := u.linkFree_iff.1 h
  rcases ha with ha | ha | ha <;> simp [ha]

/-! ### The operation's steps -/

/-- An erase runs or is paused, or a fetch or a read holds the link over it (R144). -/
theorem LinkActivity.of_erase {a : LinkActivity} {ph : Option StepPhase} (hin : ph ∈ a.phases)
    (hphase : ph = some .erasing ∨ ph = some .suspending) :
    a = .eraseRunning ∨ a = .eraseSuspended ∨ a = .fetch ∨ a = .read := by
  rcases hphase with rfl | rfl <;> cases a <;> simp [LinkActivity.phases] at hin ⊢

/-- From the end of an erase on the link stands as without it (R144). -/
theorem Store.Linked.of_eraseGone (h : u.Linked) (hphase : u.phase = some .erasing ∨ u.phase = some .suspending)
    (hactivity : v.activity = u.eraseGone.activity) (hfetch : v.fetch = u.fetch) (hread : v.read = u.read)
    (hnew : v.phase = none ∨ v.phase = some .notStarted) : v.Linked := by
  have hholds : v.readHolds = u.readHolds := by rw [Store.readHolds, hread]; rfl
  have hin := h.phase
  by_cases ha : u.activity = .eraseRunning ∨ u.activity = .eraseSuspended
  · have hidle : v.activity = .idle := by simp [hactivity, Store.eraseGone, ha]
    refine .of_unheld ?_ ?_ (by simp [hidle]) (by simp [hidle]) ?_
    · rw [hfetch]; exact h.fetch_none (by rcases ha with ha | ha <;> simp [ha])
    · rw [hholds]; exact h.readHolds_false (by rcases ha with ha | ha <;> simp [ha])
    · rw [hidle]; rcases hnew with hnew | hnew <;> simp [hnew, LinkActivity.phases]
  · have hsame : v.activity = u.activity := by simp [hactivity, Store.eraseGone, ha]
    refine h.of_phase hsame hfetch hread ?_
    rcases LinkActivity.of_erase hin hphase with hrun | hpaused | hheld
    · exact absurd (.inl hrun) ha
    · exact absurd (.inr hpaused) ha
    · rcases hheld with hheld | hheld <;> rcases hnew with hnew | hnew <;> simp [hheld, hnew, LinkActivity.phases]

/-- With the page programmed nobody holds the link (R145). -/
theorem Store.Linked.of_programmed (h : u.Linked) (hphase : u.phase = some .programming) (hactivity : v.activity = .idle)
    (hfetch : v.fetch = u.fetch) (hread : v.read = u.read) (hnew : v.phase = none ∨ v.phase = some .notStarted) :
    v.Linked := by
  have ha : u.activity = .program := by
    have hin := h.phase
    rw [hphase] at hin
    cases hact : u.activity <;> simp_all [LinkActivity.phases]
  have hholds : v.readHolds = u.readHolds := by rw [Store.readHolds, hread]; rfl
  refine .of_unheld (hfetch.trans (h.fetch_none (by simp [ha]))) (hholds.trans (h.readHolds_false (by simp [ha])))
    (by simp [hactivity]) (by simp [hactivity]) ?_
  rw [hactivity]
  rcases hnew with hnew | hnew <;> simp [hnew, LinkActivity.phases]

/-- A step waits for the store on an IDLE link alone (R142, R153). -/
theorem Store.Linked.idle_of_waitReady (h : u.Linked) (hphase : u.phase = some .waitReady) : u.activity = .idle := by
  have hin := h.phase
  rw [hphase] at hin
  cases hact : u.activity <;> simp_all [LinkActivity.phases]

end

end Sys2Proof.Machine
end


section
/-! SUPPORT. How one step can move the streams: the slots, the catalogue, the programmes, the whisper queues with the slot
wait list, and the store link. Every command, event and tick is a chain of these moves, so that a law of chapters 7 and 8 is
checked against the moves alone. -/

namespace Sys2Proof.Machine

/-! ### What stands -/

/-- The tables of the streams and the mode of the part stand. -/
structure TablesStand (s t : State) : Prop where
  slot : t.slot = s.slot
  clip : t.clip = s.clip
  prog : t.prog = s.prog
  queue : t.queue = s.queue
  waitList : t.waitList = s.waitList
  mode : t.mode = s.mode

/-- A fetch whose stream stands is one that was under way before. -/
def FetchGoesOn (u v : Store) : Prop :=
  ∀ g, v.fetch = some g → g.live = true →
    ∃ f, u.fetch = some f ∧ f.live = true ∧ g.slot = f.slot ∧ g.addr = f.addr ∧ g.count = f.count

theorem FetchGoesOn.of_eq {u v : Store} (h : v.fetch = u.fetch) : FetchGoesOn u v :=
  fun g hg hlive => ⟨g, h ▸ hg, hlive, rfl, rfl, rfl⟩

theorem FetchGoesOn.of_none {u v : Store} (h : v.fetch = none) : FetchGoesOn u v := fun g hg => by
  rw [h] at hg
  cases hg

/-- The range of store addresses that the operation in flight writes or erases (Table 8-2). -/
def Store.target (u : Store) : Option (Nat × Nat) := u.op.map (fun o => (o.start, o.size))

/-- The store link goes on: its law is kept, no fetch begins, and operation and start-up load are those that were there. -/
structure StoreMove (u v : Store) : Prop where
  linked : u.Linked → v.Linked
  fetch : FetchGoesOn u v
  target : v.target = u.target
  startup : v.startup.isSome = u.startup.isSome

theorem StoreMove.refl (u : Store) : StoreMove u u := ⟨id, .of_eq rfl, rfl, rfl⟩

/-- Only what no law reads changes: a clock, a request, the data of the operation. -/
theorem StoreMove.of_same {u v : Store} (hactivity : v.activity = u.activity) (hfetch : v.fetch = u.fetch)
    (hread : v.readHolds = u.readHolds) (hop : v.op = u.op) (hstartup : v.startup.isSome = u.startup.isSome) :
    StoreMove u v :=
  ⟨fun h => h.of_same hactivity (by rw [hfetch]) hread (by rw [Store.phase, hop]; rfl), .of_eq hfetch,
    by rw [Store.target, hop]; rfl, hstartup⟩

/-! ### The kinds of move -/

/-- A slot goes on with its stream: it is IDLE or not as before, for the same target and clip, at the same place of its pass,
and its buffer does not grow (R122, R125, R133). -/
structure Slot.GoesOn (x y : Slot) : Prop where
  idle : y.state = .idle ↔ x.state = .idle
  kind : y.kind = x.kind
  target : y.target = x.target
  clip : y.clip = x.clip
  addr : y.addr = x.addr
  left : y.left = x.left
  buffer : y.buffer.length ≤ x.buffer.length

/-- A clip that a programme may be bound to: ACTIVE, of class MUSIC and not fenced (R132, R134). -/
structure State.Bindable (s : State) (c : Nat) : Prop where
  lt : c < 128
  active : (s.clipAt c).state = .active
  music : (s.clipAt c).body.map (·.cls) = some .music
  unfenced : (s.clipAt c).fenced = false

/-- The entry lies under the operation in flight (R148). -/
def State.operatedOn (s : State) (e : Clip) : Bool := s.store.target.any (fun r => e.overlaps r.1 r.2)

/-- An entry that a catalogue command may put in the place of an unbound one with as many streams (R113 to R115, R148). -/
structure State.Admits (s : State) (c : Nat) (e : Clip) : Prop where
  ready : s.mode = .ready
  unbound : s.bound c = false
  use : e.use = (s.clipAt c).use
  empty : e.state = .empty ↔ e.body = none
  retiring : e.state = .retiring → 0 < e.use
  unused : e.state = .empty → e.use = 0
  fits : ∀ b, e.body = some b → clipFieldsFit b.cls b.start b.length (b.loop.getD 0) = true ∧ (b.loop.isSome ↔ b.cls = .music)
  fenced : e.fenced = s.operatedOn e
  quiet : e.fenced = true → e.use = 0

/-- One move of the streams. -/
inductive PlayMove (s : State) : State → Prop where
  /-- nothing changes but the store link -/
  | stand {t : State} (htables : TablesStand s t) (hstore : StoreMove s.store t.store) : PlayMove s t
  /-- slot `i` goes on -/
  | slot (i : Nat) (f : Slot → Slot) (hf : (s.slotAt i).GoesOn (f (s.slotAt i))) : PlayMove s (s.modSlot i f)
  /-- programme `k` changes, and is newly bound to a clip that it may be bound to alone (R132 to R134) -/
  | programme (k : Nat) (f : Programme → Programme)
      (hf : ∀ c, (f (s.progAt k)).binds c = true → (s.progAt k).binds c = true ∨ s.Bindable c) : PlayMove s (s.modProg k f)
  /-- programme `k` starts in its IDLE slot (R133, R134) -/
  | starts (k : Nat) (hk : k < 4) (hidle : (s.slotAt k).state = .idle) : PlayMove s (startProgramme k s)
  /-- a caller prompt starts in a free slot (R126) -/
  | prompts (i p c g : Nat) (r : Option Nat) (h : Option Bool) (hp : p < 16) (hstream : s.streamOf .caller p = none)
      (hfree : s.freeSlot = some i) (hfenced : (s.clipAt c).fenced = false) :
      PlayMove s (startStream i .caller p c g r h s)
  /-- a whisper prompt is queued (R35, R36) -/
  | queued (p : Nat) (q : List WhisperItem) (hq : q ≠ []) : PlayMove s (s.setQueue p q)
  /-- the head of p's queue is looked at (R37) -/
  | ready (p : Nat) (hp : p < 16) : PlayMove s (headReady p s)
  /-- p's queue is emptied (R39) -/
  | flushed (p : Nat) : PlayMove s ((s.setQueue p []).setWait (s.waitList.erase p))
  /-- the stream in slot `i` ends (R123) -/
  | ends (i : Nat) (c : Cause) (hi : i < 24) (hidle : (s.slotAt i).state ≠ .idle) : PlayMove s (reachIdle i c s)
  /-- a catalogue entry is written, emptied or retired (R114, R115) -/
  | catalogued (c : Nat) (e : Clip) (h : s.Admits c e) : PlayMove s (s.modClip c (fun _ => e))
  /-- an entry in use becomes RETIRING (R115) -/
  | retires (c : Nat) (hc : c < 128) (hactive : (s.clipAt c).state = .active) (hunbound : s.bound c = false)
      (hused : 0 < (s.clipAt c).use) : PlayMove s (s.modClip c (fun e => { e with state := .retiring }))
  /-- the arbiter grants the link (R140) -/
  | granted : PlayMove s (fetchGrant s)
  /-- the bytes of a fetch arrive (R119) -/
  | arrived (bytes : List Byte) : PlayMove s (fetchArrival bytes s)
  /-- a store operation is accepted (R142, R149) -/
  | accepts (kind : OpKind) (start size : Nat) (data : List Byte) (hready : s.mode = .ready) (hop : s.store.op = none)
      (hunused : s.rangeInUse start size = false ∨ start + size ≤ 4096) : PlayMove s (acceptOperation kind start size data s)
  /-- the operation in flight ends (R146) -/
  | operationEnds {t : State} (htables : TablesStand (liftFences s) t) (hop : t.store.op = none)
      (hlinked : s.store.Linked → t.store.Linked) (hfetch : t.store.fetch = s.store.fetch)
      (hstartup : t.store.startup = s.store.startup) : PlayMove s t
  /-- the start-up load finds no store (R151) -/
  | noStore : PlayMove s (startupNoStore s)
  /-- the directory is taken in (R152) -/
  | loads (dir : List Byte) : PlayMove s (startupLoadEnd dir s)
  /-- the part is reset (R196) -/
  | reset {t : State} (htables : TablesStand State.reset t) (hstore : t.store = State.reset.store) : PlayMove s t

/-- A chain of moves. -/
abbrev PlayMoves : State → State → Prop := Relation.ReflTransGen PlayMove

/-! ### Chains in which nothing moves -/

/-- The tables and the store stand. -/
def PlayStands (s t : State) : Prop := TablesStand s t ∧ t.store = s.store

theorem tablesStand_iff (s t : State) : TablesStand s t ↔ t.slot = s.slot ∧ t.clip = s.clip ∧ t.prog = s.prog ∧
    t.queue = s.queue ∧ t.waitList = s.waitList ∧ t.mode = s.mode :=
  ⟨fun h => ⟨h.slot, h.clip, h.prog, h.queue, h.waitList, h.mode⟩, fun ⟨a, b, c, d, e, f⟩ => ⟨a, b, c, d, e, f⟩⟩

theorem TablesStand.refl (s : State) : TablesStand s s := ⟨rfl, rfl, rfl, rfl, rfl, rfl⟩

theorem TablesStand.trans {s t u : State} (h : TablesStand s t) (h' : TablesStand t u) : TablesStand s u :=
  ⟨h'.slot.trans h.slot, h'.clip.trans h.clip, h'.prog.trans h.prog, h'.queue.trans h.queue, h'.waitList.trans h.waitList,
    h'.mode.trans h.mode⟩

theorem PlayMoves.of_store {s t : State} (htables : TablesStand s t) (hstore : StoreMove s.store t.store) : PlayMoves s t :=
  .single (.stand htables hstore)

theorem PlayMoves.of_stands {s t : State} (h : PlayStands s t) : PlayMoves s t :=
  .of_store h.1 (by rw [h.2]; exact .refl _)

theorem PlayMoves.then_stands {s t u : State} (h : PlayMoves s t) (h' : PlayStands t u) : PlayMoves s u :=
  h.trans (PlayMoves.of_stands h')

theorem PlayStands.trans {s t u : State} (h : PlayStands s t) (h' : PlayStands t u) : PlayStands s u :=
  ⟨h.1.trans h'.1, h'.2.trans h.2⟩

theorem PlayStands.refl (s : State) : PlayStands s s := ⟨.refl s, rfl⟩

/-- A change of a field that is none of the streams' leaves them. -/
theorem PlayStands.of_rfl {s t : State} (h : TablesStand s t := by exact ⟨rfl, rfl, rfl, rfl, rfl, rfl⟩)
    (hstore : t.store = s.store := by rfl) : PlayStands s t := ⟨h, hstore⟩

theorem PlayStands.post (r : Role) (k : NoticeKind) (p u : Option Nat) (c : Option Cause) (v : Option Nat) (s : State) :
    PlayStands s (s.post r k p u c v) := by
  cases r <;> exact .of_rfl

end Sys2Proof.Machine
end


section
/-! SUPPORT. The operations of playback, of the calls and of the store as chains of moves of the streams. -/

namespace Sys2Proof.Machine

/-! ### Slots -/

theorem Slot.GoesOn.stop (c : Cause) (x : Slot) : x.GoesOn (x.stop c) := by
  rcases x.stop_cases c with ⟨hsounds, heq⟩ | ⟨_, _, heq⟩ | ⟨_, heq⟩
  · have hidle : x.state ≠ .idle := fun h => by rw [h] at hsounds; cases hsounds
    rw [heq]
    exact ⟨by simp [hidle], rfl, rfl, rfl, rfl, rfl, Nat.le_refl _⟩
  · rw [heq]
    exact ⟨Iff.rfl, rfl, rfl, rfl, rfl, rfl, Nat.le_refl _⟩
  · rw [heq]
    exact ⟨Iff.rfl, rfl, rfl, rfl, rfl, rfl, Nat.le_refl _⟩

/-- The end of priming goes on with the stream (R121). -/
theorem Slot.primed_cases (x : Slot) :
    (x.state = .priming ∧ (128 ≤ x.buffer.length ∨ x.left = 0) ∧
        x.primed = { x with state := if x.left = 0 then .ending else .playing, begun := true }) ∨
      (¬ (x.state = .priming ∧ (128 ≤ x.buffer.length ∨ x.left = 0)) ∧ x.primed = x) := by
  by_cases h : x.state = .priming ∧ (128 ≤ x.buffer.length ∨ x.left = 0)
  · exact .inl ⟨h.1, h.2, if_pos h⟩
  · exact .inr ⟨h, if_neg h⟩

theorem Slot.GoesOn.primed (x : Slot) : x.GoesOn x.primed := by
  rcases x.primed_cases with ⟨hpriming, _, heq⟩ | ⟨_, heq⟩
  · rw [heq]
    refine ⟨?_, rfl, rfl, rfl, rfl, rfl, Nat.le_refl _⟩
    show (if x.left = 0 then StreamState.ending else .playing) = .idle ↔ x.state = .idle
    rw [hpriming]
    split <;> simp
  · rw [heq]
    exact ⟨Iff.rfl, rfl, rfl, rfl, rfl, rfl, Nat.le_refl _⟩

theorem Slot.GoesOn.trans {x y z : Slot} (h : x.GoesOn y) (h' : y.GoesOn z) : x.GoesOn z :=
  ⟨h'.idle.trans h.idle, h'.kind.trans h.kind, h'.target.trans h.target, h'.clip.trans h.clip, h'.addr.trans h.addr,
    h'.left.trans h.left, h'.buffer.trans h.buffer⟩

theorem Slot.GoesOn.reversed {x : Slot} (hidle : x.state ≠ .idle) : x.GoesOn x.reversed := by
  unfold Slot.reversed
  split
  · split
    · exact ⟨by simp [hidle], rfl, rfl, rfl, rfl, rfl, Nat.le_refl _⟩
    · exact ⟨Iff.rfl, rfl, rfl, rfl, rfl, rfl, Nat.le_refl _⟩
  · refine Slot.GoesOn.trans ?_ (.primed _)
    exact ⟨by simp [hidle], rfl, rfl, rfl, rfl, rfl, Nat.le_refl _⟩

theorem stopSlot_play (i : Nat) (c : Cause) (s : State) : PlayMoves s (stopSlot i c s) :=
  .single (.slot i _ (.stop c _))

theorem stopCaller_play (p : Nat) (c : Cause) (s : State) : PlayMoves s (stopCaller p c s) := by
  unfold stopCaller
  split
  · exact stopSlot_play ..
  · exact .refl

theorem flushWhispers_play (p : Nat) (s : State) : PlayMoves s (flushWhispers p s) := by
  have hflush : PlayMoves s ((s.setQueue p []).setWait (s.waitList.erase p)) := .single (.flushed p)
  have hpost (n : Nat) {t : State} (ht : PlayMoves s t) :
      PlayMoves s (if 1 ≤ n then t.post .floor .whisperFlushed (some p) none none (some n) else t) := by
    split
    · exact ht.then_stands (.post ..)
    · exact ht
  unfold flushWhispers
  dsimp only
  refine hpost _ ?_
  split
  · exact hflush.trans (stopSlot_play ..)
  · exact hflush

/-! ### Programmes -/

theorem listenerUp_play (k : Nat) (hk : k < 4) (s : State) : PlayMoves s (listenerUp k s) := by
  have hcount : PlayMoves s (s.modProg k (fun g => { g with listeners := g.listeners + 1 })) :=
    .single (.programme k _ fun _ h => .inl h)
  unfold listenerUp
  dsimp only
  split
  · split
    next hidle => exact hcount.tail (.starts k hk hidle)
    next hstopping => exact hcount.tail (.slot k _ (.reversed (by rw [hstopping]; simp)))
    next => exact hcount
  · exact hcount

theorem listenerDown_play (k : Nat) (s : State) : PlayMoves s (listenerDown k s) := by
  have hcount : PlayMoves s (s.modProg k (fun g => { g with listeners := g.listeners - 1 })) :=
    .single (.programme k _ fun _ h => .inl h)
  unfold listenerDown
  dsimp only
  split
  · exact hcount.trans (stopSlot_play ..)
  · exact hcount

/-- A programme is bound to its current clip and to its pending clip, and to no other (R113). -/
theorem Programme.binds_iff (g : Programme) (c : Nat) : g.binds c = true ↔ g.clip = some c ∨ g.pending = .clip c := by
  simp [Programme.binds]

theorem programmeTaken_play (k : Nat) (c : Option Nat) (s : State) (hk : k < 4) (hc : ∀ d, c = some d → s.Bindable d) :
    PlayMoves s (programmeTaken k c s) := by
  have hset : PlayMoves s (s.modProg k (fun g => { g with clip := c, pending := .empty })) :=
    .single (.programme k _ fun d hd => .inr (hc d (by simpa [Programme.binds_iff] using hd)))
  have hpending (p : PendingClip) (hp : ∀ d, p = .clip d → s.Bindable d) :
      PlayMoves s (s.modProg k (fun g => { g with pending := p })) := by
    refine .single (.programme k _ fun d hd => ?_)
    rcases (Programme.binds_iff _ d).1 hd with hclip | hnew
    · exact .inl ((Programme.binds_iff _ d).2 (.inl hclip))
    · exact .inr (hp d hnew)
  unfold programmeTaken
  dsimp only
  split
  next hidle =>
    split
    · exact hset.tail (.starts k hk hidle)
    · exact hset
  · split
    next d =>
      split
      · exact hpending .empty (by simp)
      · refine hpending (.clip d) fun e he => ?_
        cases he
        exact hc d rfl
    next => exact hpending .none (by simp)

/-! ### A frame of a slot (R122) -/

theorem stoppingFrame_play (i : Nat) (s : State) (hi : i < 24) (hstate : (s.slotAt i).state = .stopping) :
    PlayMoves s (stoppingFrame i s) := by
  unfold stoppingFrame
  dsimp only
  generalize hf : (fun x : Slot => ({ (if x.begun = true then x.taken _ else { x with out := 0 }) with ramp := _ } : Slot)) = f
  have hgoes (x : Slot) : x.GoesOn (f x) ∧ (f x).state = x.state := by
    subst hf
    dsimp only
    split
    · exact ⟨⟨Iff.rfl, rfl, rfl, rfl, rfl, rfl, by simp [Slot.taken]⟩, rfl⟩
    · exact ⟨⟨Iff.rfl, rfl, rfl, rfl, rfl, rfl, Nat.le_refl _⟩, rfl⟩
  have hstep : PlayMoves s (s.modSlot i f) := .single (.slot i f (hgoes _).1)
  have hstill : ((s.modSlot i f).slotAt i).state = .stopping := by simp [hi, (hgoes _).2, hstate]
  split
  · exact hstep.tail (.ends i _ hi (by rw [hstill]; simp))
  · split
    · exact hstep.tail (.slot i _ ⟨by rw [hstill]; simp, rfl, rfl, rfl, rfl, rfl, Nat.le_refl _⟩)
    · exact hstep

theorem postUnderrun_stands (i : Nat) (x : Slot) (s : State) : PlayStands s (postUnderrun i x s) := by
  unfold postUnderrun
  split
  · exact .post ..
  · exact .post ..
  · exact .post ..
  · exact .refl s

theorem slotFrame_play (i : Nat) (s : State) (hi : i < 24) : PlayMoves s (slotFrame i s) := by
  have hsame (f : Slot → Slot) (hf : (s.slotAt i).GoesOn (f (s.slotAt i))) : PlayMoves s (s.modSlot i f) :=
    .single (.slot i f hf)
  have htaken (y : Int) (x : Slot) : x.GoesOn (x.taken y) :=
    ⟨Iff.rfl, rfl, rfl, rfl, rfl, rfl, by simp [Slot.taken]⟩
  unfold slotFrame
  dsimp only
  split
  next => exact hsame _ ⟨Iff.rfl, rfl, rfl, rfl, rfl, rfl, Nat.le_refl _⟩
  next => exact hsame _ ⟨Iff.rfl, rfl, rfl, rfl, rfl, rfl, Nat.le_refl _⟩
  next =>
    have hempty := hsame (fun x => { x with out := 0, underrun := true })
      ⟨Iff.rfl, rfl, rfl, rfl, rfl, rfl, Nat.le_refl _⟩
    split
    · split
      · exact hempty
      · exact hempty.then_stands (postUnderrun_stands ..)
    · exact hsame _ (htaken _ _)
  next hending =>
    split
    · exact (hsame _ (htaken _ _)).tail (.ends i _ hi (by simp [hi, Slot.taken, hending]))
    · exact hsame _ (htaken _ _)
  next hstopping => exact stoppingFrame_play i s hi hstopping

/-! ### Calls -/

theorem leaveHold_play (k : Option Nat) (s : State) : PlayMoves s (leaveHold k s) := by
  cases k with
  | none => exact .refl
  | some k => exact listenerDown_play k s

theorem PlayStands.modPos (p : Nat) (f : Position → Position) (s : State) : PlayStands s (s.modPos p f) := .of_rfl

theorem endMonitoring_stands (p : Nat) (c : Cause) (s : State) : PlayStands s (endMonitoring p c s) := by
  unfold endMonitoring
  split
  · exact PlayStands.trans (t := unrelate p _ s) .of_rfl (.post ..)
  · exact .refl s

theorem teardown_play (p : Nat) (c : Cause) (s : State) : PlayMoves s (teardown p c s) := by
  rw [teardown_eq]
  have hleft : PlayMoves s (leaveHold (s.posAt p).hold (s.modPos p Position.callEnded)) :=
    (PlayMoves.of_stands (.modPos p _ s)).trans (leaveHold_play _ (s.modPos p Position.callEnded))
  have hflushed := (hleft.then_stands (endMonitoring_stands p c _)).trans (flushWhispers_play p _)
  exact PlayMoves.then_stands (hflushed.trans (stopCaller_play p .released _)) (.modPos p _ _)

theorem forcedRelease_play (s : State) : PlayMoves s (forcedRelease s) := by
  refine forPositions_keeps (PlayMoves s) _ (fun p t _ ht => ?_) s .refl
  split
  · exact ht
  · exact PlayMoves.then_stands (ht.trans (teardown_play p .lineLoss t)) (.post ..)

/-! ### The store link (chapter 8) -/

/-- A change of the store alone. -/
theorem PlayMoves.modStore {s : State} {f : Store → Store} (h : StoreMove s.store (f s.store)) : PlayMoves s (s.modStore f) :=
  .of_store ⟨rfl, rfl, rfl, rfl, rfl, rfl⟩ h

theorem StoreMove.dropRead (u : Store) : StoreMove u u.dropRead := by
  obtain ⟨hfetch, hop, hstartup, _⟩ := u.dropRead_fields
  exact ⟨.dropRead, .of_eq hfetch, by rw [Store.target, hop]; rfl, by rw [hstartup]⟩

theorem StoreMove.endFetch {u : Store} (hf : u.fetch.isSome) : StoreMove u u.endFetch :=
  ⟨fun h => h.endFetch hf, .of_none rfl, rfl, rfl⟩

theorem Store.suspendAnswered_target (u : Store) : u.suspendAnswered.target = u.target := by
  unfold Store.suspendAnswered Store.target
  cases u.op with
  | none => rfl
  | some o =>
    simp only [Option.map_some]
    split <;> rfl

theorem StoreMove.suspendAnswered (u : Store) : StoreMove u u.suspendAnswered :=
  ⟨.suspendAnswered, .of_eq rfl, u.suspendAnswered_target, rfl⟩

theorem FetchGoesOn.trans {u v w : Store} (h : FetchGoesOn u v) (h' : FetchGoesOn v w) : FetchGoesOn u w := by
  intro g hg hlive
  obtain ⟨f, hf, hflive, hslot, haddr, hcount⟩ := h' g hg hlive
  obtain ⟨e, he, helive, hslot', haddr', hcount'⟩ := h f hf hflive
  exact ⟨e, he, helive, hslot.trans hslot', haddr.trans haddr', hcount.trans hcount'⟩

theorem StoreMove.trans {u v w : Store} (h : StoreMove u v) (h' : StoreMove v w) : StoreMove u w :=
  ⟨h'.linked ∘ h.linked, h.fetch.trans h'.fetch, h'.target.trans h.target, h'.startup.trans h.startup⟩

/-- The request last sent is read by no law. -/
theorem StoreMove.request (u : Store) (r : Option StoreRequest) : StoreMove u { u with request := r } :=
  .of_same rfl rfl rfl rfl rfl

theorem fetchTimeout_play (s : State) : PlayMoves s (fetchTimeout s) := by
  unfold fetchTimeout
  split
  next f hf => exact .modStore (.endFetch (by simp [hf]))
  next => exact .refl

theorem operationStepStart_play (s : State) : PlayMoves s (operationStepStart s) := by
  unfold operationStepStart
  split
  next o ho =>
    split
    next hstart =>
      obtain ⟨_, hidle, _⟩ := hstart
      refine .modStore ⟨fun h => h.of_phase rfl rfl rfl ?_, .of_eq rfl, by simp [Store.target, ho], rfl⟩
      simp [hidle, Store.phase, LinkActivity.phases]
    next => exact .refl
  next => exact .refl

theorem stepStoreReady_play (s : State) : PlayMoves s (stepStoreReady s) := by
  unfold stepStoreReady
  split
  next o ho =>
    split
    next hwait =>
      have hunheld (h : s.store.Linked) : s.store.fetch = none ∧ s.store.readHolds = false := by
        have hidle := h.idle_of_waitReady (by simp [Store.phase, ho, hwait])
        exact ⟨h.fetch_none (by simp [hidle]), h.readHolds_false (by simp [hidle])⟩
      split
      all_goals
        refine .modStore ⟨fun h => ?_, .of_eq rfl, by simp [Store.target, ho], rfl⟩
        obtain ⟨hfetch, hread⟩ := hunheld h
        exact .of_unheld hfetch hread (by simp) (by simp) (by simp [Store.phase, LinkActivity.phases])
    next => exact .refl
  next => exact .refl

theorem eraseResume_play (s : State) : PlayMoves s (eraseResume s) := by
  unfold eraseResume
  split
  next o ho =>
    split
    next hresume =>
      obtain ⟨hpaused, _⟩ := hresume
      refine .modStore ⟨fun h => ?_, .of_eq rfl, by simp [Store.target, ho], rfl⟩
      exact .of_unheld (h.fetch_none (by simp [hpaused])) (h.readHolds_false (by simp [hpaused])) (by simp) (by simp)
        (by simp [Store.phase, LinkActivity.phases])
    next => exact .refl
  next => exact .refl

/-- Lifting takes the fence from every entry (R146). -/
theorem liftFences_clipAt (s : State) {c : Nat} (hc : c < 128) :
    (liftFences s).clipAt c = { s.clipAt c with fenced := false } := by
  have hentry := forClips_entry State.clipAt (fun _ => True)
    (fun c s => s.modClip c (fun e => { e with fenced := false })) (fun _ e => { e with fenced := false })
    (fun _ _ _ => trivial) (fun c d t hne => by simp [Ne.symm hne]) (fun c t hc _ => by simp [hc]) s trivial c
  rwa [if_pos hc] at hentry

/-- The lifted catalogue is a matter of the catalogue alone. -/
theorem liftFences_clip_congr {s t : State} (h : t.clip = s.clip) : (liftFences t).clip = (liftFences s).clip :=
  tab_ext _ _ fun c hc => by
    show (liftFences t).clipAt c = (liftFences s).clipAt c
    rw [liftFences_clipAt t hc, liftFences_clipAt s hc, clipAt_congr h]

theorem storeDone_tables (c : Cause) {s : State} {o : Operation} (ho : s.store.op = some o) :
    TablesStand (liftFences s) (storeDone c s) := by
  have hclip : (storeDone c s).clip = (liftFences s).clip := by
    unfold storeDone
    rw [ho]
    simp
  exact ⟨by simp, hclip, by simp, by simp, by simp, by simp⟩

theorem storeDone_store (c : Cause) (s : State) : (storeDone c s).store = { s.store with op := none } := by
  unfold storeDone
  cases ho : s.store.op with
  | none =>
    generalize s.store = u at ho
    cases u
    cases ho
    rfl
  | some o => simp

/-- The step in progress lets go of the link: its activity alone changes, and the law holds from then on, with the next step
not begun or with no operation left. -/
structure Store.LetsGo (u : Store) (f : Store → Store) : Prop where
  op : (f u).op = u.op
  fetch : (f u).fetch = u.fetch
  read : (f u).read = u.read
  startup : (f u).startup = u.startup
  linked : ∀ v : Store, v.activity = (f u).activity → v.fetch = u.fetch → v.read = u.read →
    (v.phase = none ∨ v.phase = some .notStarted) → u.Linked → v.Linked

theorem Store.LetsGo.eraseGone {u : Store} (hphase : u.phase = some .erasing ∨ u.phase = some .suspending) :
    u.LetsGo Store.eraseGone :=
  ⟨rfl, rfl, rfl, rfl, fun _ hactivity hfetch hread hnew h => h.of_eraseGone hphase hactivity hfetch hread hnew⟩

theorem Store.LetsGo.programmed {u : Store} (hphase : u.phase = some .programming) :
    u.LetsGo (fun u => { u with activity := .idle }) :=
  ⟨rfl, rfl, rfl, rfl, fun _ hactivity hfetch hread hnew h => h.of_programmed hphase hactivity hfetch hread hnew⟩

/-- The operation ends, and lets go of the link (R146). -/
theorem storeDone_play (c : Cause) {f : Store → Store} {s : State} (hf : s.store.LetsGo f) (hop : s.store.op.isSome) :
    PlayMoves s (storeDone c (s.modStore f)) := by
  obtain ⟨o, ho⟩ := Option.isSome_iff_exists.1 hop
  have hlifted : TablesStand (liftFences s) (liftFences (s.modStore f)) :=
    ⟨by simp, liftFences_clip_congr rfl, by simp, by simp, by simp, by simp⟩
  refine .single (.operationEnds (hlifted.trans (storeDone_tables c (o := o) (hf.op.trans ho))) ?_ ?_ ?_ ?_)
  all_goals rw [storeDone_store]
  · exact hf.linked _ rfl hf.fetch hf.read (.inl rfl)
  · exact hf.fetch
  · exact hf.startup

/-- A step ends in time: the save goes on, or the operation ends (R149). -/
theorem stepEnded_play {f : Store → Store} {s : State} (hf : s.store.LetsGo f) (hop : s.store.op.isSome) :
    PlayMoves s (stepEnded (s.modStore f)) := by
  obtain ⟨o, ho⟩ := Option.isSome_iff_exists.1 hop
  have ho' : (s.modStore f).store.op = some o := hf.op.trans ho
  unfold stepEnded
  rw [ho']
  dsimp only
  split
  · refine .of_store ⟨rfl, rfl, rfl, rfl, rfl, rfl⟩ ⟨hf.linked _ rfl hf.fetch hf.read (.inr rfl), .of_eq hf.fetch, ?_, ?_⟩
    · rw [Store.target, Store.target, ho]
      rfl
    · exact congrArg Option.isSome hf.startup
  · exact storeDone_play .ok hf hop

theorem op_isSome_of_phase {u : Store} {ph : StepPhase} (h : u.phase = some ph) : u.op.isSome := by
  unfold Store.phase at h
  cases hop : u.op <;> simp_all

theorem eraseDone_play (s : State) : PlayMoves s (eraseDone s) := by
  unfold eraseDone
  split
  next hphase => exact stepEnded_play (.eraseGone hphase) (hphase.elim op_isSome_of_phase op_isSome_of_phase)
  next => exact .refl

theorem eraseTimeout_play (s : State) : PlayMoves s (eraseTimeout s) := by
  unfold eraseTimeout
  split
  next hphase => exact storeDone_play .timeout (.eraseGone (.inl hphase)) (op_isSome_of_phase hphase)
  next => exact .refl

theorem suspendTimeout_play (s : State) : PlayMoves s (suspendTimeout s) := by
  unfold suspendTimeout
  split
  next hphase => exact storeDone_play .timeout (.eraseGone (.inr hphase)) (op_isSome_of_phase hphase)
  next => exact .refl

theorem programDone_play (s : State) : PlayMoves s (programDone s) := by
  unfold programDone
  split
  next hphase => exact stepEnded_play (.programmed hphase) (op_isSome_of_phase hphase)
  next => exact .refl

theorem programTimeout_play (s : State) : PlayMoves s (programTimeout s) := by
  unfold programTimeout
  split
  next hphase => exact storeDone_play .timeout (.programmed hphase) (op_isSome_of_phase hphase)
  next => exact .refl

theorem Store.suspendErase_target (u : Store) : u.suspendErase.target = u.target := by
  unfold Store.suspendErase Store.target
  cases hop : u.op with
  | none => simp [hop]
  | some o =>
    dsimp only
    split
    · rfl
    · rw [hop]

theorem storeReadServe_play (s : State) : PlayMoves s (storeReadServe s) := by
  unfold storeReadServe
  split
  next r hr =>
    split
    next hserve =>
      obtain ⟨hfree, _⟩ := hserve
      obtain ⟨hfetch, _, hstartup, _⟩ := s.store.suspendErase_fields
      refine .modStore ⟨fun h => ⟨?_, ?_, ?_⟩, .of_eq hfetch, s.store.suspendErase_target, congrArg Option.isSome hstartup⟩
      · have hnone := h.fetch_none (Store.linkFree_activity hfree).1
        simp [hfetch, hnone]
      · simp [Store.readHolds]
      · exact h.taken_phase hfree
    next => exact .refl
  next => exact .refl

theorem PlayStands.modPort (f : Port → Port) (s : State) : PlayStands s (s.modPort f) := .of_rfl

theorem storeReadComplete_play (bytes : List Byte) (s : State) : PlayMoves s (storeReadComplete bytes s) := by
  unfold storeReadComplete
  split
  · split
    · refine PlayMoves.then_stands (.modStore ?_) (.modPort _ _)
      exact ((StoreMove.suspendAnswered _).trans (.dropRead _)).trans (.request _ _)
    · exact .refl
  · exact .refl

theorem storeReadAbandon_play (s : State) : PlayMoves s (storeReadAbandon s) := by
  unfold storeReadAbandon
  split
  · exact PlayMoves.then_stands (.modStore (.dropRead _)) (.modPort _ _)
  · exact .refl

/-- A tick counts clocks alone. -/
theorem StoreMove.tick (u : Store) : StoreMove u u.tick := by
  have hread : u.tick.readHolds = u.readHolds := by
    unfold Store.tick Store.readHolds
    cases u.read <;> rfl
  have hphase : u.tick.phase = u.phase := by
    unfold Store.tick Store.phase
    cases u.op <;> rfl
  refine ⟨fun h => h.of_same rfl Option.isSome_map hread hphase, fun g hg hlive => ?_, ?_, Option.isSome_map⟩
  · obtain ⟨f, hf, rfl⟩ := Option.map_eq_some_iff.1 hg
    exact ⟨f, hf, hlive, rfl, rfl, rfl⟩
  · unfold Store.tick Store.target
    cases u.op <;> rfl

theorem tick_play (s : State) : PlayMoves s (tick s) :=
  .of_store ⟨rfl, rfl, rfl, rfl, rfl, rfl⟩ (.tick s.store)

theorem startupStoreReady_play (s : State) : PlayMoves s (startupStoreReady s) := by
  have hload (ph : StartupPhase) (h : s.loading = some ph) : s.store.startup.isSome := by
    unfold State.loading at h
    cases hstartup : s.store.startup <;> simp_all
  unfold startupStoreReady
  split
  next h => exact .modStore (.of_same rfl rfl rfl rfl (hload _ h).symm)
  next h => exact .modStore (.of_same rfl rfl rfl rfl (hload _ h).symm)
  next h => exact .modStore (.of_same rfl rfl rfl rfl (hload _ h).symm)
  next => exact .refl

end Sys2Proof.Machine
end

section
/-! SUPPORT. Every command, event and tick as a chain of moves of the streams. -/

namespace Sys2Proof.Machine

/-! ### Commands that leave the streams -/

/-- The meanings of the commands that have nothing to do with the streams, SET_LEVELS and the READ commands aside. -/
def streamQuietCores : List (List Byte → State → State × Answer) :=
  [connectCore, muteCore, setCallGainsCore, setSidetoneCore, monitorCore, unmonitorCore, setEcCore, resetEcCore,
   setNeighboursCore, forceClockFailCore, fun _ => ackClockFailCore]

theorem streamQuietCores_stand (ps : List Byte) (s : State) : ∀ core ∈ streamQuietCores, PlayStands s (core ps s).1 := by
  simp only [streamQuietCores, List.forall_mem_cons]
  unfold connectCore muteCore setCallGainsCore setSidetoneCore monitorCore unmonitorCore setEcCore resetEcCore
    setNeighboursCore forceClockFailCore ackClockFailCore
  dsimp only
  refine ⟨?_, ?_, ?_, ?_, ?_, ?_, ?_, ?_, ?_, ?_, ?_, nofun⟩
  all_goals (repeat' split) <;> simp [PlayStands, tablesStand_iff, relate]

theorem setLevelsCore_playStands (ps : List Byte) (s : State) : PlayStands s (setLevelsCore ps s).1 :=
  forPositions_keeps (PlayStands s) (fun p u => u.modLev p _) (fun _ _ _ h => h.trans .of_rfl) _ .of_rfl

theorem readCore_playStands (limit : Nat) (record : State → Nat → List Byte) (ps : List Byte) (s : State) :
    PlayStands s (readCore limit record ps s).1 := by
  unfold readCore
  split <;> exact .of_rfl

theorem fetchNoticesCore_playStands (ps : List Byte) (r : Role) (s : State) : PlayStands s (fetchNoticesCore ps r s).1 := by
  unfold fetchNoticesCore
  dsimp only
  split
  · exact .of_rfl
  · cases r <;> exact .of_rfl

/-! ### Call commands -/

theorem holdCore_play (ps : List Byte) (s : State) : PlayMoves s (holdCore ps s).1 := by
  unfold holdCore
  dsimp only
  split
  · exact .refl
  next hin =>
    have hk : field1 ps 1 < 4 := by omega
    split
    · exact .refl
    · exact (PlayMoves.of_stands (.modPos _ _ s)).trans (listenerUp_play _ hk _)
    · split
      · exact .refl
      · have hleft : PlayMoves s (leaveHold (s.posAt (field1 ps 0)).hold s) := leaveHold_play _ s
        exact (hleft.then_stands (.modPos _ _ _)).trans (listenerUp_play _ hk _)

theorem resumeCore_play (ps : List Byte) (s : State) : PlayMoves s (resumeCore ps s).1 := by
  unfold resumeCore
  dsimp only
  split
  · exact .refl
  · split
    · exact .refl
    · exact .refl
    · exact (PlayMoves.of_stands (.modPos _ _ s)).trans (leaveHold_play (s.posAt (field1 ps 0)).hold _)

theorem releaseCore_play (ps : List Byte) (s : State) : PlayMoves s (releaseCore ps s).1 := by
  unfold releaseCore
  dsimp only
  split_ifs
  · exact .refl
  · exact .refl
  · exact teardown_play ..

/-! ### Whisper commands -/

theorem interruptWhispers_play (p : Nat) (it : WhisperItem) (s : State) : PlayMoves s (interruptWhispers p it s) := by
  have hstop : PlayMoves s (match s.streamOf .whisper p with
      | some i => stopSlot i .interrupted s
      | none => s) := by
    split
    · exact stopSlot_play ..
    · exact .refl
  have hdrop (c : Option Nat) (n : Prop) [Decidable n] {t : State} (ht : PlayMoves s t) :
      PlayMoves s (if n then t.post .floor .whisperEnded (some p) c (some .dropped) none else t) := by
    split
    · exact ht.then_stands (.post ..)
    · exact ht
  exact (hdrop _ _ hstop).tail (.queued p _ (List.cons_ne_nil _ _))

theorem whisperPromptCore_play (ps : List Byte) (s : State) : PlayMoves s (whisperPromptCore ps s).1 := by
  unfold whisperPromptCore
  dsimp only
  split
  · exact .refl
  · split
    · exact .refl
    next hin =>
      have hp : field1 ps 0 < 16 := by omega
      iterate 4
        split
        · exact .refl
      split
      · split
        · exact .refl
        · exact Relation.ReflTransGen.tail (.single (.queued _ _ (by simp))) (.ready _ hp)
      · exact (interruptWhispers_play _ _ s).tail (.ready _ hp)

theorem clearWhispersCore_play (ps : List Byte) (s : State) : PlayMoves s (clearWhispersCore ps s).1 := by
  unfold clearWhispersCore
  dsimp only
  split
  · exact .refl
  · exact flushWhispers_play ..

/-! ### Clips, prompts and programmes -/

/-- The entry that CLIP_LOAD writes fits, with the loop offset that it keeps (R114). -/
theorem clipBody_fits {cls : ClipClass} {start len loop : Nat} (h : clipFieldsFit cls start len loop = true) :
    clipFieldsFit cls start len ((clipBody cls start len loop).loop.getD 0) = true ∧
      ((clipBody cls start len loop).loop.isSome ↔ cls = .music) := by
  unfold clipFieldsFit clipBody at *
  by_cases hmusic : cls = .music
  · simp_all
  · simp_all

theorem clipLoadCore_play (ps : List Byte) (s : State) (hready : s.mode = .ready) : PlayMoves s (clipLoadCore ps s).1 := by
  unfold clipLoadCore
  dsimp only
  split
  · exact .refl
  next cls _ =>
    split_ifs with hrange hbusy
    · exact .refl
    · exact .refl
    · obtain ⟨_, hfits⟩ : ¬ 127 < field1 ps 0 ∧ clipFieldsFit cls (field3 ps 2) (field3 ps 5) (field3 ps 8) = true := by
        simpa [not_or] using hrange
      obtain ⟨_, hunused, hunbound, _⟩ : (s.clipAt (field1 ps 0)).state ≠ .retiring ∧
          ¬ 0 < (s.clipAt (field1 ps 0)).use ∧ ¬ s.bound (field1 ps 0) = true ∧ _ := by simpa [not_or] using hbusy
      refine .single (.catalogued (field1 ps 0) _ ⟨hready, by simpa using hunbound, by simp; omega, by simp, by simp, by simp,
        ?_, ?_, by simp⟩)
      · rintro b hb
        cases hb
        exact clipBody_fits hfits
      · show s.underOperation _ _ = s.operatedOn _
        unfold State.underOperation State.operatedOn Store.target Clip.overlaps
        cases s.store.op <;> rfl

theorem clipDeleteCore_play (ps : List Byte) (s : State) (hready : s.mode = .ready) : PlayMoves s (clipDeleteCore ps s).1 := by
  unfold clipDeleteCore
  dsimp only
  split_ifs with hrange hactive hbound huse
  · exact .refl
  · exact .refl
  · exact .refl
  · refine .single (.catalogued (field1 ps 0) _ ⟨hready, by simpa using hbound, huse.symm, ?_, ?_, ?_, ?_, ?_, ?_⟩)
    · exact ⟨fun _ => rfl, fun _ => rfl⟩
    · exact nofun
    · exact fun _ => rfl
    · exact nofun
    · unfold State.operatedOn
      cases s.store.target <;> rfl
    · exact nofun
  · exact .single (.retires _ (by omega) (by simpa using hactive) (by simpa using hbound) (by omega))

theorem setProgrammeCore_play (ps : List Byte) (s : State) : PlayMoves s (setProgrammeCore ps s).1 := by
  unfold setProgrammeCore
  dsimp only
  split_ifs with hk hnone hc hactive hcls hfenced
  · exact .refl
  · exact programmeTaken_play (field1 ps 0) none s (by omega) fun _ hd => absurd hd (by simp)
  · exact .refl
  · exact .refl
  · exact .refl
  · exact .refl
  · refine programmeTaken_play (field1 ps 0) (some (field1 ps 1)) s (by omega) fun d hd => ?_
    cases hd
    exact ⟨by omega, by simpa using hactive, by simpa using hcls, by simpa using hfenced⟩

theorem callerPromptCore_play (ps : List Byte) (s : State) : PlayMoves s (callerPromptCore ps s).1 := by
  unfold callerPromptCore
  dsimp only
  split_ifs with hrange hcall hactive hcls hfenced hstream
  · exact .refl
  · exact .refl
  · exact .refl
  · exact .refl
  · exact .refl
  · exact .refl
  · split
    · exact .refl
    next i hfree =>
      exact .single (.prompts i _ _ _ _ _ (by omega) (by simpa using hstream) hfree (by simpa using hfenced))

theorem stopPromptCore_play (ps : List Byte) (s : State) : PlayMoves s (stopPromptCore ps s).1 := by
  unfold stopPromptCore
  dsimp only
  split
  · exact .refl
  · split
    · split
      · exact stopSlot_play ..
      · exact .refl
    · exact .refl

/-! ### Store commands -/

theorem storeEraseCore_play (ps : List Byte) (s : State) (hready : s.mode = .ready) : PlayMoves s (storeEraseCore ps s).1 := by
  unfold storeEraseCore
  dsimp only
  split_ifs with hrange hop huse
  · exact .refl
  · exact .refl
  · exact .refl
  · exact .single (.accepts .erase (Config.sectorBytes * field2 ps 0) Config.sectorBytes [] hready (by simpa using hop)
      (.inl (by simpa using huse)))

theorem storeWriteCore_play (ps : List Byte) (s : State) (hready : s.mode = .ready) : PlayMoves s (storeWriteCore ps s).1 := by
  unfold storeWriteCore
  dsimp only
  split_ifs with hrange hop huse
  · exact .refl
  · exact .refl
  · exact .refl
  · exact .single (.accepts .write (field3 ps 0) (field1 ps 3) (ps.drop 4) hready (by simpa using hop)
      (.inl (by simpa using huse)))

theorem saveDirectoryCore_play (s : State) (hready : s.mode = .ready) : PlayMoves s (saveDirectoryCore s).1 := by
  unfold saveDirectoryCore
  split_ifs with hop
  · exact .refl
  · exact .single (.accepts .save 0 Config.sectorBytes s.directoryImage hready (by simpa using hop) (.inr (Nat.le_refl _)))

theorem storeReadCore_play (ps : List Byte) (s : State) (hread : s.store.read = none) : PlayMoves s (storeReadCore ps s).1 := by
  unfold storeReadCore
  dsimp only
  split_ifs
  · exact .refl
  · exact .refl
  · refine .of_store ⟨rfl, rfl, rfl, rfl, rfl, rfl⟩ (.of_same rfl rfl ?_ rfl rfl)
    simp [Store.readHolds, hread]

/-! ### The grace timer and the frames -/

theorem graceExpiry_play (s : State) : PlayMoves s (graceExpiry s) := by
  rcases graceExpiry_cases s with ⟨_, heq⟩ | ⟨_, heq⟩
  · rw [heq]
    exact (PlayMoves.of_stands .of_rfl).trans (forcedRelease_play (s.modTmn (fun t => { t with running := false })))
  · rw [heq]

theorem setGraceCore_play (ps : List Byte) (s : State) : PlayMoves s (setGraceCore ps s).1 :=
  (PlayMoves.of_stands .of_rfl).trans (graceExpiry_play (s.modTmn (fun t => { t with grace := clampTo 255 (field2 ps 0) })))

theorem missingWords_stands (s : State) : PlayStands s (missingWords s) := by simp [PlayStands, tablesStand_iff]

theorem blockBoundary_play (s : State) : PlayMoves s (blockBoundary s) := by
  rcases blockBoundary_cases s with ⟨_, heq⟩ | ⟨_, heq⟩
  · rw [heq]
    have hblock : PlayStands s (blockWork (missingWords s)) := by simp [PlayStands, tablesStand_iff]
    exact (PlayMoves.of_stands hblock).trans (graceExpiry_play _)
  · rw [heq]

theorem PlayStands.withSound (s v : State) : PlayStands s (s.withSound v) := .of_rfl

theorem frameOut_stands (s : State) : PlayStands s (frameOut s) := by
  rw [frameOut_withSound s]
  exact .withSound ..

theorem PlayStands.modTmn (f : Timing → Timing) (s : State) : PlayStands s (s.modTmn f) := .of_rfl
theorem PlayStands.setWords (n : Nat) (s : State) : PlayStands s (s.setWords n) := .of_rfl

theorem frameWork_play (s : State) : PlayMoves s (frameWork s) := by
  rw [frameWork_eq]
  have hslots : PlayMoves s (forSlots slotFrame (frameOut s)) :=
    forSlots_keeps (PlayMoves s) slotFrame (fun i t hi ht => ht.trans (slotFrame_play i t hi)) _
      (.of_stands (frameOut_stands s))
  exact (hslots.then_stands (.modTmn _ _)).then_stands (.setWords _ _)

theorem frameBoundary_play (s : State) : PlayMoves s (frameBoundary s) := by
  unfold frameBoundary
  split
  · exact ((PlayMoves.of_stands (missingWords_stands s)).trans (blockBoundary_play _)).trans (frameWork_play _)
  · exact .refl

theorem makeBoundary_play (n : NextFrame) (s : State) : PlayMoves s (makeBoundary n s) :=
  (blockBoundary_play s).then_stands (.modTmn _ _)

theorem graceTimerExpiry_play (s : State) : PlayMoves s (graceTimerExpiry s) := by
  unfold graceTimerExpiry
  split_ifs
  · exact graceExpiry_play s
  · exact blockBoundary_play s
  · exact .refl

theorem postBoth_stands (k : NoticeKind) (s : State) : PlayStands s (postBoth k s) := by
  simp [PlayStands, tablesStand_iff]

theorem lock_play (rx : Tab 32 Byte) (s : State) : PlayMoves s (lock rx s) := by
  have hlocked {t : State} (h : PlayMoves s t) (f : Timing → Timing) : PlayMoves s (postBoth .clockLocked (t.modTmn f)) :=
    (h.then_stands (.modTmn f t)).then_stands (postBoth_stands _ _)
  refine hlocked ?_ _
  split
  · exact makeBoundary_play ..
  · exact .refl

theorem lineSync_play (rx : Tab 32 Byte) (s : State) : PlayMoves s (lineSync rx s) := by
  unfold lineSync
  dsimp only
  split
  · exact .refl
  · split
    · exact .of_stands (.modTmn _ _)
    · split_ifs
      · exact lock_play rx s
      · exact .of_stands (.modTmn _ _)
      · exact .of_stands (.modTmn _ _)
    · split
      · exact (makeBoundary_play (.line rx) s).then_stands (.modTmn _ _)
      · exact .refl

theorem clockFail_play (s : State) : PlayMoves s (clockFail s) := by
  unfold clockFail
  split
  · exact ((makeBoundary_play .internal s).then_stands (.modTmn _ _)).then_stands (postBoth_stands _ _)
  · exact .refl

/-! ### Frames on the Control Link -/

theorem PlayMoves.owe {s t : State} (h : PlayMoves s t) (st : Station) (code : Byte) (a : Answer) :
    PlayMoves s (t.owe st code a) := h.then_stands (.of_rfl)

/-- A pending read is withdrawn at the acceptance of a frame (R189). -/
theorem accepted_play (s : State) : PlayMoves s s.accepted :=
  .of_store ⟨rfl, rfl, rfl, rfl, rfl, rfl⟩ (.dropRead s.store)

theorem PlayMoves.takeFrame {st : Station} {code : Byte} {roles : List Role} {fits whileStarting : Bool}
    {core : Role → State → State × Answer}
    (hcore : ∀ r t, (t.mode = .ready ∨ whileStarting = true) → t.store.read = none → PlayMoves t (core r t).1) (s : State) :
    PlayMoves s (Machine.takeFrame st code roles fits whileStarting core s) := by
  rcases takeFrame_cases st code roles fits whileStarting core s with ⟨r, _, _, _, hmode, heq⟩ | ⟨status, heq⟩
  · rw [heq]
    exact PlayMoves.owe ((accepted_play s).trans (hcore r _ hmode (Store.dropRead_read _))) ..
  · rw [heq]
    exact (accepted_play s).owe ..

/-- Every command of Table 12-1 is a chain of moves. -/
theorem handlers_play : ∀ h ∈ handlers, ∀ (st : Station) (ps : List Byte) (s : State), PlayMoves s (h.take st ps s) := by
  have quiet {st : Station} {code : Byte} {roles : List Role} {fits whileStarting : Bool} {ps : List Byte}
      {core : List Byte → State → State × Answer} (s : State) (hcore : core ∈ streamQuietCores := by simp [streamQuietCores]) :
      PlayMoves s (takeFrame st code roles fits whileStarting (fun _ => core ps) s) :=
    .takeFrame (fun _ t _ _ => .of_stands (streamQuietCores_stand ps t core hcore)) s
  have stands {st : Station} {code : Byte} {roles : List Role} {fits whileStarting : Bool}
      {core : Role → State → State × Answer} (s : State) (hcore : ∀ r t, PlayStands t (core r t).1) :
      PlayMoves s (takeFrame st code roles fits whileStarting core s) :=
    .takeFrame (fun r t _ _ => .of_stands (hcore r t)) s
  have moves {st : Station} {code : Byte} {roles : List Role} {fits whileStarting : Bool}
      {core : Role → State → State × Answer} (s : State) (hcore : ∀ r t, PlayMoves t (core r t).1) :
      PlayMoves s (takeFrame st code roles fits whileStarting core s) := .takeFrame (fun r t _ _ => hcore r t) s
  have ready {st : Station} {code : Byte} {roles : List Role} {fits : Bool}
      {core : Role → State → State × Answer} (s : State) (hcore : ∀ r t, t.mode = .ready → PlayMoves t (core r t).1) :
      PlayMoves s (takeFrame st code roles fits false core s) :=
    .takeFrame (fun r t hmode _ => hcore r t (hmode.resolve_right Bool.false_ne_true)) s
  simp only [handlers, List.forall_mem_cons]
  exact
    ⟨fun _ _ => quiet (core := connectCore), fun _ ps s => moves s fun _ => holdCore_play ps,
     fun _ ps s => moves s fun _ => resumeCore_play ps, fun _ ps s => moves s fun _ => releaseCore_play ps,
     fun _ _ => quiet (core := muteCore), fun _ _ => quiet (core := setCallGainsCore),
     fun _ _ => quiet (core := setSidetoneCore), fun _ _ => quiet (core := monitorCore),
     fun _ _ => quiet (core := unmonitorCore), fun _ ps s => moves s fun _ => whisperPromptCore_play ps,
     fun _ ps s => moves s fun _ => clearWhispersCore_play ps, fun _ _ => quiet (core := setEcCore),
     fun _ _ => quiet (core := resetEcCore), fun _ ps s => stands s fun _ => setLevelsCore_playStands ps,
     fun _ _ => quiet (core := setNeighboursCore), fun _ ps s => ready s fun _ => clipLoadCore_play ps,
     fun _ ps s => ready s fun _ => clipDeleteCore_play ps, fun _ ps s => moves s fun _ => setProgrammeCore_play ps,
     fun _ ps s => moves s fun _ => callerPromptCore_play ps, fun _ ps s => moves s fun _ => stopPromptCore_play ps,
     fun _ ps s => ready s fun _ => storeEraseCore_play ps, fun _ ps s => ready s fun _ => storeWriteCore_play ps,
     fun _ ps s => .takeFrame (fun _ t _ => storeReadCore_play ps t) s,
     fun _ _ s => ready s fun _ => saveDirectoryCore_play, fun _ ps s => moves s fun _ => setGraceCore_play ps,
     fun _ _ => quiet (core := forceClockFailCore), fun _ ps => quiet (core := fun _ => ackClockFailCore) (ps := ps),
     fun _ ps s => stands s fun _ => readCore_playStands 16 State.positionRecord ps,
     fun _ ps s => stands s fun _ => readCore_playStands 24 State.streamRecord ps,
     fun _ ps s => stands s fun _ => readCore_playStands 128 State.clipRecord ps,
     fun _ _ s => stands s fun _ => .refl, fun _ _ s => stands s fun _ => .refl,
     fun _ ps s => stands s fun r => fetchNoticesCore_playStands ps r, nofun⟩

theorem unknownCommand_play (st : Station) (body : List Byte) (s : State) : PlayMoves s (unknownCommand st body s) := by
  unfold unknownCommand
  split_ifs
  · exact (accepted_play s).owe ..
  · exact (accepted_play s).owe ..
  · exact .refl

theorem takeBody_play (st : Station) (body : List Byte) (s : State) : PlayMoves s (takeBody st body s) := by
  unfold takeBody
  split
  · exact unknownCommand_play st [] s
  · split
    next h hfound => exact handlers_play h (List.mem_of_find?_eq_some hfound) st _ s
    next => exact unknownCommand_play st _ s

/-! ### The receiver -/

theorem PlayMoves.modPort (f : Port → Port) (s : State) : PlayMoves s (s.modPort f) := .of_stands (.modPort f s)

theorem takeCheck_play (d : Byte) (s : State) : PlayMoves s (takeCheck d s) := by
  unfold takeCheck
  split
  · split
    · exact takeBody_play ..
    · exact .modPort _ s
  · exact .modPort _ s

theorem takeCharacter_play (ch : BitVec 12) (s : State) : PlayMoves s (takeCharacter ch s) := by
  unfold takeCharacter
  dsimp only
  split
  · exact .modPort _ s
  · split
    · exact .refl
    · exact .modPort _ s
    · exact .modPort _ s
    · exact takeCheck_play _ s

theorem characterArrives_play (ch : BitVec 12) (low : Nat) (s : State) : PlayMoves s (characterArrives ch low s) := by
  rcases characterArrives_cases ch low s with ⟨_, h⟩ | ⟨_, _, h⟩ | ⟨_, _, _, h⟩ | ⟨_, _, _, h⟩
  all_goals rw [h]
  · exact .modPort _ s
  · exact (PlayMoves.modPort _ s).trans (takeCharacter_play ch _)
  · exact (PlayMoves.modPort _ s).trans (PlayMoves.modPort _ _)
  · exact .modPort _ s

theorem goodCharacter_play (ch : BitVec 12) (w : CharacterTime) (s : State) : PlayMoves s (goodCharacter ch w s) := by
  cases w with
  | begins low =>
    show PlayMoves s (characterBegins ch low s)
    rcases characterBegins_cases ch low s with ⟨_, _, h⟩ | ⟨_, h⟩
    · rw [h]
      exact .modPort _ s
    · rw [h]
  | ended low =>
    show PlayMoves s (characterEnds ch low s)
    unfold characterEnds
    split
    · exact (characterArrives_play ch 0 s).trans (PlayMoves.modPort _ _)
    · exact characterArrives_play ch low s

theorem frameAbandoned_play (why : AbandonCause) (s : State) : PlayMoves s (frameAbandoned why s) := by
  unfold frameAbandoned
  split
  · exact characterArrives_play ..
  · exact .refl

/-! ### Every step -/

/-- The rows of the Control Link's limits and replies, and the end of an acquisition, have nothing to do with the streams. -/
theorem quietRows_stand (s : State) : PlayStands s (receiverIdleTimeout s) ∧ PlayStands s (replyStart s) ∧
    PlayStands s (replyDrop s) ∧ PlayStands s (replyCollision s) ∧ PlayStands s (replyEnd s) ∧
    PlayStands s (acquisitionTimeout s) := by
  unfold receiverIdleTimeout replyStart replyDrop replyCollision replyEnd
  refine ⟨?_, ?_, ?_, ?_, ?_, ?_⟩
  all_goals (repeat' split) <;> simp [PlayStands, tablesStand_iff]

/-- Every row is a chain of moves. -/
theorem exec_play (c : Instr) (s t : State) (h : exec c s = .next t) : PlayMoves s t := by
  obtain ⟨hidle, hstart, hdrop, hcollision, hend, hacquisition⟩ := quietRows_stand s
  cases hb : frameBody c with
  | some frame =>
    rcases exec_frame c frame.1 frame.2 s hb with hc | hc
    all_goals
      rw [hc] at h
      cases h
    · exact takeBody_play ..
    · exact unknownCommand_play ..
  | none =>
    cases c with
    | deviceReset straps => cases h; exact .single (.reset ⟨rfl, rfl, rfl, rfl, rfl, rfl⟩ rfl)
    | startupStoreReady => cases h; exact startupStoreReady_play s
    | startupNoStore => cases h; exact .single .noStore
    | startupLoadEnd dir => cases h; exact .single (.loads dir)
    | frameBoundary => cases h; exact frameBoundary_play s
    | blockBoundary => cases h; exact blockBoundary_play s
    | graceTimerExpiry => cases h; exact graceTimerExpiry_play s
    | lineSync rx => cases h; exact lineSync_play rx s
    | acquisitionTimeout => cases h; exact .of_stands hacquisition
    | clockFail => cases h; exact clockFail_play s
    | headsetWordArrival p w => cases h; exact .of_stands (by simp [PlayStands, tablesStand_iff])
    | fetchGrant => cases h; exact .single .granted
    | fetchArrival bytes => cases h; exact .single (.arrived bytes)
    | fetchTimeout => cases h; exact fetchTimeout_play s
    | operationStepStart => cases h; exact operationStepStart_play s
    | stepStoreReady => cases h; exact stepStoreReady_play s
    | eraseDone => cases h; exact eraseDone_play s
    | eraseTimeout => cases h; exact eraseTimeout_play s
    | suspendTimeout => cases h; exact suspendTimeout_play s
    | eraseResume => cases h; exact eraseResume_play s
    | programDone => cases h; exact programDone_play s
    | programTimeout => cases h; exact programTimeout_play s
    | storeReadServe => cases h; exact storeReadServe_play s
    | storeReadComplete bytes => cases h; exact storeReadComplete_play bytes s
    | storeReadAbandon => cases h; exact storeReadAbandon_play s
    | receiverIdleTimeout => cases h; exact .of_stands hidle
    | frameAbandoned why => cases h; exact frameAbandoned_play why s
    | goodCharacter ch w => cases h; exact goodCharacter_play ch w s
    | linkBreak => cases h; exact .modPort _ s
    | replyStart => cases h; exact .of_stands hstart
    | replyDrop => cases h; exact .of_stands hdrop
    | replyCollision => cases h; exact .of_stands hcollision
    | replyEnd => cases h; exact .of_stands hend
    | resetPinHeld => cases h; exact .of_stands .of_rfl
    | _ => cases hb

/-- Every step is a chain of moves. -/
theorem step_play (s t : State) (h : step s = .next t) : PlayMoves s t :=
  step_kept (PlayMoves s) (fun _ _ h => PlayMoves.then_stands h .of_rfl)
    (fun c _ u h hc => h.trans (exec_play c _ u hc)) (fun u h => h.trans (tick_play u)) s t .refl h

end Sys2Proof.Machine
end

section
/-! SUPPORT. What giving a slot away does to the tables: streams start in IDLE slots, and a programme takes its pending change
(R37, R38, R129, R130, R133 to R135). -/

namespace Sys2Proof.Machine

/-! ### The kinds of change -/

/-- One change of the tables while a slot is given away. -/
inductive StreamMove (s : State) : State → Prop where
  /-- the slots, the catalogue, the programmes and the store stand -/
  | stand {t : State} (hslot : t.slot = s.slot) (hclip : t.clip = s.clip) (hprog : t.prog = s.prog)
      (hstore : t.store = s.store) (hmode : t.mode = s.mode) : StreamMove s t
  /-- a programme is bound to no clip that it was not bound to (R135) -/
  | rebound (k : Nat) (f : Programme → Programme)
      (hf : ∀ c, (f (s.progAt k)).binds c = true → (s.progAt k).binds c = true) : StreamMove s (s.modProg k f)
  /-- a stream starts in an IDLE slot, on a clip that is bound or not fenced (R118) -/
  | started (i : Nat) (k : StreamKind) (p c g : Nat) (r : Option Nat) (h : Option Bool) (hi : i < 24)
      (hidle : (s.slotAt i).state = .idle) (hclip : (s.clipAt c).fenced = false ∨ s.bound c = true) :
      StreamMove s (startStream i k p c g r h s)

/-- A chain of such changes. -/
abbrev StreamMoves : State → State → Prop := Relation.ReflTransGen StreamMove

theorem StreamMoves.post {s t : State} (h : StreamMoves s t) (r : Role) (k : NoticeKind) (p u : Option Nat)
    (c : Option Cause) (v : Option Nat) : StreamMoves s (t.post r k p u c v) := by
  refine h.tail (.stand ?_ ?_ ?_ ?_ ?_) <;> cases r <;> rfl

/-! ### The whisper queues -/

theorem whisperUsable_iff (s : State) (c : Nat) : s.whisperUsable c = true ↔ (s.clipAt c).state = .active ∧
    (s.clipAt c).body.map (·.cls) = some .whisper ∧ (s.clipAt c).fenced = false := by
  simp [State.whisperUsable, and_assoc]

theorem startHead_streams (p i : Nat) (l : List WhisperItem) (s : State) (hi : i < 24) (hidle : (s.slotAt i).state = .idle) :
    StreamMoves s (startHead p i l s).2 := by
  induction l generalizing s with
  | nil => exact .single (.stand rfl rfl rfl rfl rfl)
  | cons it rest ih =>
    unfold startHead
    split
    next husable =>
      obtain ⟨_, _, hfenced⟩ := (whisperUsable_iff s it.clip).1 husable
      have hset : StreamMoves s (s.setQueue p rest) := .single (.stand rfl rfl rfl rfl rfl)
      exact hset.tail (.started i .whisper p it.clip it.gain none none hi hidle (.inl hfenced))
    next => exact (StreamMoves.post .refl ..).trans (ih _ (by simpa using hidle))

/-- Where no item starts, slots and clips stand. -/
theorem startHead_unstarted (p i : Nat) (l : List WhisperItem) (s : State) (h : (startHead p i l s).1 = false) :
    (startHead p i l s).2.slot = s.slot ∧ (startHead p i l s).2.clip = s.clip := by
  induction l generalizing s with
  | nil => exact ⟨rfl, rfl⟩
  | cons it rest ih =>
    unfold startHead at h ⊢
    split at h
    · cases h
    next husable =>
      rw [if_neg husable]
      have htail := ih _ h
      simpa using htail

theorem serveWaiting_streams (i : Nat) (l : List Nat) (s : State) (hi : i < 24) (hidle : (s.slotAt i).state = .idle) :
    StreamMoves s (serveWaiting i l s) := by
  induction l generalizing s with
  | nil => exact .single (.stand rfl rfl rfl rfl rfl)
  | cons p ps ih =>
    have hset : StreamMoves s (s.setWait ps) := .single (.stand rfl rfl rfl rfl rfl)
    have hhead := hset.trans (startHead_streams p i (s.queueAt p) (s.setWait ps) hi hidle)
    have hnone := startHead_unstarted p i (s.queueAt p) (s.setWait ps)
    unfold serveWaiting
    revert hhead hnone
    rcases startHead p i (s.queueAt p) (s.setWait ps) with ⟨b, t⟩
    intro hhead hnone
    cases b with
    | true => exact hhead
    | false => exact hhead.trans (ih t (by rw [slotAt_congr (hnone rfl).1]; exact hidle))

theorem headReady_streams (p : Nat) (s : State) : StreamMoves s (headReady p s) := by
  unfold headReady
  split
  · exact .refl
  · split
    · exact .single (.stand rfl rfl rfl rfl rfl)
    next i hfree =>
      obtain ⟨_, hi, hidle, _⟩ := freeSlot_some s i hfree
      have hhead := startHead_streams p i (s.queueAt p) s hi hidle
      have hnone := startHead_unstarted p i (s.queueAt p) s
      revert hhead hnone
      rcases startHead p i (s.queueAt p) s with ⟨b, t⟩
      intro hhead hnone
      cases b with
      | true => exact hhead
      | false => exact hhead.trans (serveWaiting_streams i _ t hi (by rw [slotAt_congr (hnone rfl).1]; exact hidle))

/-! ### Programmes -/

theorem State.bound_iff (s : State) (c : Nat) : s.bound c = true ↔ ∃ k, k < 4 ∧ (s.progAt k).binds c = true := by
  simp [State.bound]

theorem startProgramme_streams (k : Nat) (s : State) (hk : k < 4) (hidle : (s.slotAt k).state = .idle) :
    StreamMoves s (startProgramme k s) := by
  unfold startProgramme
  split
  · exact .refl
  next c hc =>
    have hbound : s.bound c = true := (s.bound_iff c).2 ⟨k, hk, (Programme.binds_iff _ c).2 (.inl hc)⟩
    exact .single (.started k .programme k c Config.unity none none (by omega) hidle (.inr hbound))

theorem applyPending_streams (k : Nat) (s : State) : StreamMoves s (applyPending k s) := by
  unfold applyPending
  split
  · exact .refl
  next c hc =>
    have hset : StreamMoves s (s.modProg k (fun g => { g with clip := some c, pending := .empty })) :=
      .single (.rebound k _ fun d hd => by simp_all [Programme.binds_iff])
    exact hset.post ..
  next hnone =>
    have hset : StreamMoves s (s.modProg k (fun g => { g with clip := none, pending := .empty })) :=
      .single (.rebound k _ fun d hd => by simp_all [Programme.binds_iff])
    exact hset.post ..

/-- Beyond the four programmes there is no listener. -/
theorem progAt_out (s : State) {k : Nat} (hk : 4 ≤ k) : (s.progAt k).listeners = 0 := by
  rw [State.progAt, tget_out _ _ hk]
  rfl

theorem settleProgramme_streams (k : Nat) (s : State) (hidle : (s.slotAt k).state = .idle) :
    StreamMoves s (settleProgramme k s) := by
  have hpending := applyPending_streams k s
  unfold settleProgramme
  dsimp only
  split
  next hlisteners =>
    have hk : k < 4 := by
      by_contra hout
      rw [progAt_out _ (by omega)] at hlisteners
      omega
    exact hpending.trans (startProgramme_streams k _ hk (by rw [slotAt_congr (s := s) (by simp)]; exact hidle))
  next => exact hpending

/-! ### A slot reaches IDLE -/

/-- An entry with one use less: a RETIRING one at its last use becomes EMPTY (R116). -/
def Clip.dropped (e : Clip) : Clip := if e.state = .retiring ∧ e.use ≤ 1 then Clip.empty else { e with use := e.use - 1 }

theorem useDown_clip (c : Nat) (s : State) : (useDown c s).clip = tmod s.clip c Clip.dropped := by
  rcases useDown_cases c s with ⟨hretiring, hlast, heq⟩ | ⟨hmore, heq⟩
  · have hdropped : (s.clipAt c).dropped = Clip.empty := if_pos ⟨hretiring, hlast⟩
    rw [heq, State.post_clip]
    exact congrArg (tset s.clip c) hdropped.symm
  · have hdropped : (s.clipAt c).dropped = { s.clipAt c with use := (s.clipAt c).use - 1 } := if_neg hmore
    rw [heq]
    exact congrArg (tset s.clip c) hdropped.symm

/-- The stream in slot `i` has ended, and the slot is not yet given away (R123). -/
def slotEnded (i : Nat) (c : Cause) (s : State) : State :=
  let t := postEnded (s.slotAt i) c s
  let t := match (s.slotAt i).clip with
    | some d => useDown d t
    | none => t
  dropFetchOf i (t.modSlot i (fun y => { Slot.fresh i with out := y.out }))

theorem reachIdle_eq (i : Nat) (c : Cause) (s : State) : reachIdle i c s =
    match (s.slotAt i).kind, (s.slotAt i).target with
    | some .whisper, some p => headReady p (serveWaiting i (slotEnded i c s).waitList (slotEnded i c s))
    | some .caller, _ => serveWaiting i (slotEnded i c s).waitList (slotEnded i c s)
    | some .programme, _ => settleProgramme i (slotEnded i c s)
    | _, _ => slotEnded i c s := rfl

/-- The ended slot is fresh, but for the sample of the frame in progress; every other slot stands. -/
theorem slotEnded_slotAt (i : Nat) (c : Cause) (s : State) (j : Nat) : (slotEnded i c s).slotAt j =
    if i = j ∧ i < 24 then { Slot.fresh i with out := (s.slotAt i).out } else s.slotAt j := by
  unfold slotEnded
  cases (s.slotAt i).clip with
  | none => simpa [State.slotAt] using tget_tmod ..
  | some d => simpa [State.slotAt] using tget_tmod ..

/-- A use ends with the stream (R116). -/
theorem slotEnded_clip (i : Nat) (c : Cause) (s : State) : (slotEnded i c s).clip =
    match (s.slotAt i).clip with
    | some d => tmod s.clip d Clip.dropped
    | none => s.clip := by
  unfold slotEnded
  cases (s.slotAt i).clip with
  | none => simp
  | some d => simp [useDown_clip]

theorem slotEnded_keeps (i : Nat) (c : Cause) (s : State) : (slotEnded i c s).prog = s.prog ∧
    (slotEnded i c s).queue = s.queue ∧ (slotEnded i c s).waitList = s.waitList ∧ (slotEnded i c s).mode = s.mode ∧
    (slotEnded i c s).store = (dropFetchOf i s).store := by
  unfold slotEnded
  cases (s.slotAt i).clip with
  | none => simp [dropFetchOf]
  | some d => simp [dropFetchOf]

theorem slotEnded_idle (i : Nat) (c : Cause) (s : State) (hi : i < 24) : ((slotEnded i c s).slotAt i).state = .idle := by
  rw [slotEnded_slotAt, if_pos ⟨rfl, hi⟩]
  rfl

theorem reachIdle_streams (i : Nat) (c : Cause) (s : State) (hi : i < 24) :
    StreamMoves (slotEnded i c s) (reachIdle i c s) := by
  have hidle := slotEnded_idle i c s hi
  have hserve := serveWaiting_streams i (slotEnded i c s).waitList _ hi hidle
  rw [reachIdle_eq]
  split
  · exact hserve.trans (headReady_streams _ _)
  · exact hserve
  · exact settleProgramme_streams i _ hidle
  · exact .refl

end Sys2Proof.Machine
end

section
/-! SUPPORT. The moves of the streams keep what holds the store link, and the fetch that of its slot (R117, R119, R139 to
R145). -/

namespace Sys2Proof.Machine

/-! ### The store link -/

theorem dropFetchOf_linked (i : Nat) (s : State) (h : s.store.Linked) : (dropFetchOf i s).store.Linked :=
  h.of_same rfl Option.isSome_map rfl rfl

theorem fetchGrant_cases (s : State) :
    (∃ i, s.store.linkFree = true ∧ s.store.read = none ∧ s.nextAsking = some i ∧
        fetchGrant s = s.modStore (fun u => { u.suspendErase with
          activity := .fetch, lastServed := i,
          fetch := some { slot := i, addr := (s.slotAt i).addr, count := min Config.fetchBlock (s.slotAt i).left, live := true,
                          clock := 0 } })) ∨
      fetchGrant s = s := by
  unfold fetchGrant
  split
  next hfree =>
    obtain ⟨hfree, hread⟩ := hfree
    cases hnext : s.nextAsking with
    | some i => exact .inl ⟨i, hfree, hread, rfl, rfl⟩
    | none => exact .inr rfl
  next => exact .inr rfl

theorem fetchGrant_linked (s : State) (h : s.store.Linked) : (fetchGrant s).store.Linked := by
  rcases fetchGrant_cases s with ⟨i, hfree, hnone, _, heq⟩ | heq
  · rw [heq]
    obtain ⟨_, hread, _⟩ := s.store.suspendErase_fields
    exact ⟨by simp, by simp [Store.readHolds, hread, hnone], h.taken_phase hfree⟩
  · rwa [heq]

/-- The store when bytes have arrived: the link has let go of the fetch, and a suspend is answered (R141, R144). -/
def Store.fetched (f : Fetch) (u : Store) : Store := { u.suspendAnswered.endFetch with request := some (.read f.addr f.count) }

theorem fetchArrival_cases (bytes : List Byte) (s : State) :
    (∃ f, s.store.fetch = some f ∧ bytes.length = f.count ∧ f.live = true ∧
        fetchArrival bytes s = arrive f.slot bytes (s.modStore (Store.fetched f))) ∨
      (∃ f, s.store.fetch = some f ∧ bytes.length = f.count ∧ f.live = false ∧
        fetchArrival bytes s = s.modStore (Store.fetched f)) ∨
      fetchArrival bytes s = s := by
  unfold fetchArrival
  cases hf : s.store.fetch with
  | none => exact .inr (.inr rfl)
  | some f =>
    dsimp only
    split
    next hlen =>
      cases hlive : f.live with
      | true => exact .inl ⟨f, rfl, hlen, hlive, rfl⟩
      | false => exact .inr (.inl ⟨f, rfl, hlen, hlive, rfl⟩)
    next => exact .inr (.inr rfl)

theorem Store.Linked.fetched {u : Store} (h : u.Linked) {f : Fetch} (hf : u.fetch = some f) : (u.fetched f).Linked :=
  (h.suspendAnswered.endFetch (by simp [Store.suspendAnswered, hf])).of_same rfl rfl rfl rfl

theorem fetchArrival_linked (bytes : List Byte) (s : State) (h : s.store.Linked) : (fetchArrival bytes s).store.Linked := by
  rcases fetchArrival_cases bytes s with ⟨f, hf, _, _, heq⟩ | ⟨f, hf, _, _, heq⟩ | heq
  · rw [heq]
    have hstands : (arrive f.slot bytes (s.modStore (Store.fetched f))).store = s.store.fetched f := by simp
    rw [hstands]
    exact h.fetched hf
  · rw [heq]
    exact h.fetched hf
  · rwa [heq]

theorem acceptOperation_store (kind : OpKind) (start size : Nat) (data : List Byte) (s : State) :
    (acceptOperation kind start size data s).store = { s.store with
      op := some { kind := kind, start := start, size := size, data := data, step := 0, phase := .notStarted, runTime := 0,
                   clock := 0 } } := by
  simp [acceptOperation]

theorem acceptOperation_linked (kind : OpKind) (start size : Nat) (data : List Byte) (s : State) (hop : s.store.op = none)
    (h : s.store.Linked) : (acceptOperation kind start size data s).store.Linked := by
  rw [acceptOperation_store]
  refine h.of_phase rfl rfl rfl ?_
  have hphase := h.phase
  cases ha : s.store.activity <;> simp_all [LinkActivity.phases, Store.phase]

/-- The end of the start-up load, and the directory, leave what holds the link. -/
def LoadStands (u v : Store) : Prop :=
  v = { u with startup := v.startup, request := v.request } ∧ (v.startup = u.startup ∨ v.startup = none)

theorem loadEnds_store (r : Cause) (n : Nat) (s : State) : (loadEnds r n s).store = { s.store with startup := none } := by
  simp [loadEnds]

theorem takeEntry_store (dir : List Byte) (acc : State × Nat) (i : Nat) : (takeEntry dir acc i).1.store = acc.1.store := by
  unfold takeEntry
  repeat' split
  all_goals simp

theorem takeEntries_store (dir : List Byte) (l : List Nat) (acc : State × Nat) :
    (l.foldl (takeEntry dir) acc).1.store = acc.1.store := by
  induction l generalizing acc with
  | nil => rfl
  | cons i l ih => exact (ih _).trans (takeEntry_store dir acc i)

theorem startupLoadEnd_store (dir : List Byte) (s : State) : LoadStands s.store (startupLoadEnd dir s).store := by
  unfold startupLoadEnd
  split
  · split
    · rw [loadEnds_store, takeEntries_store]
      exact ⟨rfl, .inr rfl⟩
    · rw [loadEnds_store]
      exact ⟨rfl, .inr rfl⟩
  · exact ⟨rfl, .inl rfl⟩

theorem startupNoStore_store (s : State) : LoadStands s.store (startupNoStore s).store := by
  unfold startupNoStore
  split
  · rw [loadEnds_store]
    exact ⟨rfl, .inr rfl⟩
  · exact ⟨rfl, .inl rfl⟩

theorem LoadStands.linked {u v : Store} (h : LoadStands u v) (hu : u.Linked) : v.Linked := by
  rw [h.1]
  exact hu.of_same rfl rfl rfl rfl

theorem PlayMove.linked {s t : State} (hmove : PlayMove s t) (h : s.store.Linked) : t.store.Linked := by
  cases hmove with
  | stand _ hstore => exact hstore.linked h
  | slot => exact h
  | programme => exact h
  | starts k => rwa [show (startProgramme k s).store = s.store by simp]
  | prompts i p c g r b =>  rwa [show (startStream i .caller p c g r b s).store = s.store by simp]
  | queued => exact h
  | ready p => rwa [show (headReady p s).store = s.store by simp]
  | flushed => exact h
  | ends i c =>
    rw [reachIdle_store]
    exact dropFetchOf_linked i s h
  | catalogued => exact h
  | retires => exact h
  | granted => exact fetchGrant_linked s h
  | arrived bytes => exact fetchArrival_linked bytes s h
  | accepts kind start size data _ hop => exact acceptOperation_linked kind start size data s hop h
  | operationEnds _ _ hlinked => exact hlinked h
  | noStore => exact (startupNoStore_store s).linked h
  | loads dir => exact (startupLoadEnd_store dir s).linked h
  | reset _ hstore =>
    rw [hstore]
    exact (storeLinkLaw_iff _).1 reset_storeLinkLaw

theorem PlayMoves.linked {s t : State} (h : PlayMoves s t) (hs : s.store.Linked) : t.store.Linked := by
  induction h with
  | refl => exact hs
  | tail _ hmove ih => exact hmove.linked ih

/-! ### The fetch and its slot -/

/-- The fetch is that of the slot's next block (R119). -/
def Fetch.Fits (f : Fetch) (x : Slot) : Prop :=
  x.state ≠ .idle ∧ f.addr = x.addr ∧ f.count = min 64 x.left ∧ 0 < x.left ∧ x.buffer.length ≤ 192

theorem fetchLaw_iff (s : State) : FetchLaw s ↔
    (∀ f, s.store.fetch = some f → f.live = true → f.slot < 24 ∧ f.Fits (s.slotAt f.slot)) ∧
      ∀ i, i < 24 → (s.slotAt i).buffer.length ≤ 256 := Iff.rfl

/-- A slot goes on, or was IDLE and has fetched nothing. -/
def Slot.Follows (x y : Slot) : Prop := x.GoesOn y ∨ (x.state = .idle ∧ y.buffer = [])

theorem Slot.GoesOn.refl (x : Slot) : x.GoesOn x := ⟨Iff.rfl, rfl, rfl, rfl, rfl, rfl, Nat.le_refl _⟩

theorem Slot.Follows.refl (x : Slot) : x.Follows x := .inl (.refl x)

theorem Fetch.Fits.follows {f g : Fetch} {x y : Slot} (h : f.Fits x) (hxy : x.Follows y) (haddr : g.addr = f.addr)
    (hcount : g.count = f.count) : g.Fits y := by
  obtain ⟨hidle, hfaddr, hfcount, hleft, hbuffer⟩ := h
  rcases hxy with hgoes | ⟨hstate, _⟩
  · exact ⟨mt hgoes.idle.1 hidle, by rw [haddr, hgoes.addr, hfaddr], by rw [hcount, hgoes.left, hfcount],
      by rw [hgoes.left]; exact hleft, hgoes.buffer.trans hbuffer⟩
  · exact absurd hstate hidle

theorem Slot.Follows.buffer {x y : Slot} (hxy : x.Follows y) (h : x.buffer.length ≤ 256) : y.buffer.length ≤ 256 := by
  rcases hxy with hgoes | ⟨_, hempty⟩
  · exact hgoes.buffer.trans h
  · simp [hempty]

/-- The law stands where the fetch goes on and each slot goes on, or where no fetch that lives is the slot's. -/
theorem FetchLaw.of_follows {s t : State} (h : FetchLaw s) (hfetch : FetchGoesOn s.store t.store)
    (hslots : ∀ i, i < 24 → (s.slotAt i).Follows (t.slotAt i) ∨
      ((t.slotAt i).buffer = [] ∧ ∀ f, t.store.fetch = some f → f.live = true → f.slot ≠ i)) : FetchLaw t := by
  obtain ⟨hlive, hbuffers⟩ := (fetchLaw_iff s).1 h
  refine (fetchLaw_iff t).2 ⟨fun g hg hglive => ?_, fun i hi => ?_⟩
  · obtain ⟨f, hf, hflive, hslot, haddr, hcount⟩ := hfetch g hg hglive
    obtain ⟨hlt, hfits⟩ := hlive f hf hflive
    rw [hslot]
    refine ⟨hlt, ?_⟩
    rcases hslots f.slot hlt with hfollows | ⟨_, hnone⟩
    · exact hfits.follows hfollows haddr hcount
    · exact absurd hslot (hnone g hg hglive)
  · rcases hslots i hi with hfollows | ⟨hempty, _⟩
    · exact hfollows.buffer (hbuffers i hi)
    · simp [hempty]

theorem FetchLaw.of_slots {s t : State} (h : FetchLaw s) (hstore : t.store.fetch = s.store.fetch)
    (hslots : ∀ i, i < 24 → (s.slotAt i).Follows (t.slotAt i)) : FetchLaw t :=
  h.of_follows (.of_eq hstore) fun i hi => .inl (hslots i hi)

/-- The slots stand. -/
theorem FetchLaw.of_stand {s t : State} (h : FetchLaw s) (hfetch : FetchGoesOn s.store t.store) (hslot : t.slot = s.slot) :
    FetchLaw t :=
  h.of_follows hfetch fun i _ => .inl (by rw [slotAt_congr hslot]; exact .refl _)

theorem startStream_slotAt (i : Nat) (k : StreamKind) (p c g : Nat) (r : Option Nat) (h : Option Bool) (s : State) {j : Nat}
    (hne : j ≠ i) : (startStream i k p c g r h s).slotAt j = s.slotAt j := by
  rcases startStream_cases i k p c g r h s with ⟨_, heq⟩ | ⟨b, _, heq⟩
  · rw [heq]
  · rw [heq, State.modSlot_slotAt, if_neg fun hij => hne hij.1.symm]
    exact slotAt_congr (by simp) j

/-- A stream that starts has fetched nothing. -/
theorem startStream_follows (i : Nat) (k : StreamKind) (p c g : Nat) (r : Option Nat) (h : Option Bool) (s : State)
    (hidle : (s.slotAt i).state = .idle) (j : Nat) : (s.slotAt j).Follows ((startStream i k p c g r h s).slotAt j) := by
  by_cases hij : j = i
  · subst hij
    rcases startStream_cases j k p c g r h s with ⟨_, heq⟩ | ⟨b, _, heq⟩
    · rw [heq]
      exact .refl _
    · rw [heq, State.modSlot_slotAt]
      split
      · exact .inr ⟨hidle, rfl⟩
      · rw [slotAt_congr (s := s) (by simp)]
        exact .refl _
  · rw [startStream_slotAt _ _ _ _ _ _ _ _ hij]
    exact .refl _

theorem StreamMove.fetchLaw {s t : State} (hmove : StreamMove s t) (h : FetchLaw s) : FetchLaw t := by
  cases hmove with
  | stand hslot _ _ hstore => exact h.of_stand (.of_eq (by rw [hstore])) hslot
  | rebound => exact h.of_stand (.of_eq rfl) rfl
  | started i k p c g r b hi hidle =>
    exact h.of_slots (by simp) fun j _ => startStream_follows i k p c g r b s hidle j

theorem StreamMoves.fetchLaw {s t : State} (h : StreamMoves s t) (hs : FetchLaw s) : FetchLaw t := by
  induction h with
  | refl => exact hs
  | tail _ hmove ih => exact hmove.fetchLaw ih

/-- The fetch of a stream that has ended lives no more (R119). -/
theorem slotEnded_fetchLaw (i : Nat) (c : Cause) (s : State) (h : FetchLaw s) : FetchLaw (slotEnded i c s) := by
  obtain ⟨_, _, _, _, hstore⟩ := slotEnded_keeps i c s
  have hfetch : (slotEnded i c s).store.fetch =
      s.store.fetch.map (fun f => if f.slot = i then { f with live := false } else f) := by rw [hstore]; rfl
  refine h.of_follows (fun g hg hlive => ?_) fun j hj => ?_
  · rw [hfetch] at hg
    obtain ⟨f, hf, heq⟩ := Option.map_eq_some_iff.1 hg
    split at heq
    · rw [← heq] at hlive
      cases hlive
    · exact ⟨f, hf, heq ▸ hlive, by rw [heq], by rw [heq], by rw [heq]⟩
  · rw [slotEnded_slotAt]
    split
    next hij =>
      obtain ⟨rfl, _⟩ := hij
      refine .inr ⟨rfl, fun g hg hlive hslot => ?_⟩
      rw [hfetch] at hg
      obtain ⟨f, _, heq⟩ := Option.map_eq_some_iff.1 hg
      split at heq
      · rw [← heq] at hlive
        cases hlive
      · exact absurd (heq ▸ hslot) ‹_›
    next => exact .inl (.refl _)

/-! ### Grant and arrival -/

theorem nextAsking_some {s : State} {i : Nat} (h : s.nextAsking = some i) : i < 24 ∧ (s.slotAt i).asks = true := by
  unfold State.nextAsking at h
  obtain ⟨j, _, rfl⟩ := List.mem_map.1 (List.mem_of_find?_eq_some h)
  exact ⟨Nat.mod_lt _ (by omega), by simpa using List.find?_some h⟩

theorem Slot.asks_iff (x : Slot) : x.asks = true ↔
    (x.state = .priming ∨ x.state = .playing ∨ x.state = .stopping) ∧ x.buffer.length ≤ Config.askFill ∧
      0 < x.left := by
  simp [Slot.asks, and_assoc, or_assoc]

theorem fetchGrant_fetchLaw (s : State) (h : FetchLaw s) : FetchLaw (fetchGrant s) := by
  rcases fetchGrant_cases s with ⟨i, _, _, hnext, heq⟩ | heq
  · obtain ⟨hi, hasks⟩ := nextAsking_some hnext
    obtain ⟨hstate, hfill, hleft⟩ := (Slot.asks_iff _).1 hasks
    rw [heq]
    refine ⟨fun f hf _ => ?_, h.2⟩
    cases hf
    refine ⟨hi, fun hidle => ?_, rfl, rfl, hleft, hfill⟩
    change (s.slotAt i).state = .idle at hidle
    simp [hidle] at hstate
  · rwa [heq]

theorem primed_buffer (x : Slot) : x.primed.buffer = x.buffer := by
  rcases x.primed_cases with ⟨_, _, heq⟩ | ⟨_, heq⟩ <;> rw [heq]

/-- A change of one slot that leaves the buffer leaves every buffer. -/
theorem modSlot_buffer (i : Nat) (f : Slot → Slot) (hf : ∀ x, (f x).buffer = x.buffer) (s : State) (j : Nat) :
    ((s.modSlot i f).slotAt j).buffer = (s.slotAt j).buffer := by
  rw [State.modSlot_slotAt]
  split
  next hij => rw [hf, hij.1]
  next => rfl

theorem programmePassEnd_buffer (k : Nat) (s : State) (j : Nat) :
    ((programmePassEnd k s).slotAt j).buffer = (s.slotAt j).buffer := by
  have hpending (t : State) : (applyPending k t).slotAt j = t.slotAt j := slotAt_congr (by simp) j
  unfold programmePassEnd
  dsimp only
  split
  · rw [hpending]
    refine (modSlot_buffer _ _ ?_ _ _).trans ?_
    · exact fun _ => rfl
    · split <;> rw [slotAt_congr (s := s) (by simp)]
  · rw [hpending, modSlot_buffer]
    intro x
    split <;> rfl
  · split
    · apply modSlot_buffer
      exact fun _ => rfl
    · rfl

theorem passEnd_buffer (i : Nat) (s : State) (j : Nat) : ((passEnd i s).slotAt j).buffer = (s.slotAt j).buffer := by
  unfold passEnd
  dsimp only
  rw [modSlot_buffer _ _ (fun x => by split <;> rfl)]
  split
  · exact programmePassEnd_buffer i s j
  · split
    · apply modSlot_buffer
      exact fun _ => rfl
    · rfl
  · rfl

/-- The bytes of a fetch lie behind the samples of its slot, and no other buffer changes (R119). -/
theorem arrive_buffer (i : Nat) (bytes : List Byte) (s : State) (j : Nat) : ((arrive i bytes s).slotAt j).buffer =
    if i = j ∧ i < 24 then (s.slotAt i).buffer ++ bytes.map lawDecode else (s.slotAt j).buffer := by
  unfold arrive
  dsimp only
  rw [modSlot_buffer _ _ primed_buffer]
  split
  · rw [passEnd_buffer, State.modSlot_slotAt]
    split <;> rfl
  · rw [State.modSlot_slotAt]
    split <;> rfl

theorem fetchArrival_fetchLaw (bytes : List Byte) (s : State) (h : FetchLaw s) : FetchLaw (fetchArrival bytes s) := by
  rcases fetchArrival_cases bytes s with ⟨f, hf, hlen, hlive, heq⟩ | ⟨f, _, _, _, heq⟩ | heq
  · rw [heq]
    obtain ⟨hfits, hbuffers⟩ := (fetchLaw_iff s).1 h
    obtain ⟨hslot, _, _, hcount, _, hfill⟩ := hfits f hf hlive
    have hnone : (arrive f.slot bytes (s.modStore (Store.fetched f))).store.fetch = none := by
      rw [show (arrive f.slot bytes (s.modStore (Store.fetched f))).store = s.store.fetched f by simp]
      rfl
    refine ⟨fun g hg => ?_, fun i hi => ?_⟩
    · rw [hnone] at hg
      cases hg
    · rw [arrive_buffer]
      split
      · simp only [List.length_append, List.length_map, State.modStore_slotAt]
        omega
      · exact hbuffers i hi
  · rw [heq]
    exact h.of_stand (.of_none rfl) rfl
  · rwa [heq]

/-! ### Every move -/

theorem takeEntry_slot (dir : List Byte) (acc : State × Nat) (i : Nat) : (takeEntry dir acc i).1.slot = acc.1.slot := by
  unfold takeEntry
  repeat' split
  all_goals simp

theorem takeEntries_slot (dir : List Byte) (l : List Nat) (acc : State × Nat) :
    (l.foldl (takeEntry dir) acc).1.slot = acc.1.slot := by
  induction l generalizing acc with
  | nil => rfl
  | cons i l ih => exact (ih _).trans (takeEntry_slot dir acc i)

theorem startupLoadEnd_slot (dir : List Byte) (s : State) : (startupLoadEnd dir s).slot = s.slot := by
  unfold startupLoadEnd
  split
  · split
    · simp [takeEntries_slot]
    · simp
  · rfl

theorem LoadStands.fetch {u v : Store} (h : LoadStands u v) : v.fetch = u.fetch := by rw [h.1]

theorem startupNoStore_slot (s : State) : (startupNoStore s).slot = s.slot := by
  unfold startupNoStore
  split <;> simp

theorem PlayMove.fetchLaw {s t : State} (hmove : PlayMove s t) (h : FetchLaw s) : FetchLaw t := by
  cases hmove with
  | stand htables hstore => exact h.of_stand hstore.fetch htables.slot
  | slot i f hf =>
    refine h.of_slots rfl fun j _ => ?_
    rw [State.modSlot_slotAt]
    split
    next hij => exact .inl (hij.1 ▸ hf)
    next => exact .refl _
  | programme => exact h.of_stand (.of_eq rfl) rfl
  | starts k hk hidle => exact (startProgramme_streams k s hk hidle).fetchLaw h
  | prompts i p c g r b hp hstream hfree hfenced =>
    obtain ⟨_, hi, hidle, _⟩ := freeSlot_some s i hfree
    exact (StreamMove.started i .caller p c g r b hi hidle (.inl hfenced)).fetchLaw h
  | queued => exact h.of_stand (.of_eq rfl) rfl
  | ready p => exact (headReady_streams p s).fetchLaw h
  | flushed => exact h.of_stand (.of_eq rfl) rfl
  | ends i c hi => exact (reachIdle_streams i c s hi).fetchLaw (slotEnded_fetchLaw i c s h)
  | catalogued => exact h.of_stand (.of_eq rfl) rfl
  | retires => exact h.of_stand (.of_eq rfl) rfl
  | granted => exact fetchGrant_fetchLaw s h
  | arrived bytes => exact fetchArrival_fetchLaw bytes s h
  | accepts kind start size data => exact h.of_stand (.of_eq (by rw [acceptOperation_store])) (by simp)
  | operationEnds htables _ _ hfetch => exact h.of_stand (.of_eq hfetch) (htables.slot.trans (by simp))
  | noStore => exact h.of_stand (.of_eq (startupNoStore_store s).fetch) (startupNoStore_slot s)
  | loads dir => exact h.of_stand (.of_eq (startupLoadEnd_store dir s).fetch) (startupLoadEnd_slot dir s)
  | reset htables hstore => exact reset_fetchLaw.of_stand (.of_eq (by rw [hstore])) htables.slot

theorem PlayMoves.fetchLaw {s t : State} (h : PlayMoves s t) (hs : FetchLaw s) : FetchLaw t := by
  induction h with
  | refl => exact hs
  | tail _ hmove ih => exact hmove.fetchLaw ih

end Sys2Proof.Machine

open Sys2Proof Sys2Proof.Machine

/-- Settles O60: every step is a chain of moves of the streams, and each move keeps what holds the link and the fetch of its
slot. -/
theorem storeLinkStaysConsistent : Obligations.StoreLinkStaysConsistent := by
  intro s t _ ⟨hlink, hfetch⟩ hstep
  have hmoves := step_play s t hstep
  exact ⟨(storeLinkLaw_iff t).2 (hmoves.linked ((storeLinkLaw_iff s).1 hlink)), hmoves.fetchLaw hfetch⟩

end

section
/-! SUPPORT. The use counts, the bindings and the fences as one law of each entry, and how the moves of the streams keep it
(R113, R116, R132, R146, R148). -/

namespace Sys2Proof.Machine

/-! ### The law of an entry -/

/-- An entry with `n` streams, bound or not, under an operation with the given range of addresses. -/
structure Clip.Sound (target : Option (Nat × Nat)) (e : Clip) (n : Nat) (bound : Bool) : Prop where
  use : e.use = n
  empty : e.state = .empty ↔ e.body = none
  unused : e.state = .empty → n = 0
  retiring : e.state = .retiring → 0 < n
  fits : ∀ b, e.body = some b → clipFieldsFit b.cls b.start b.length (b.loop.getD 0) = true ∧ (b.loop.isSome ↔ b.cls = .music)
  fenced : e.fenced = target.any (fun r => e.overlaps r.1 r.2)
  quiet : e.fenced = true → n = 0 ∧ bound = false
  bindable : bound = true → e.state = .active ∧ e.body.map (·.cls) = some .music

/-- The law of the catalogue, its bindings and its fences. -/
structure StreamsSound (s : State) : Prop where
  entry : ∀ c, c < 128 → (s.clipAt c).Sound s.store.target (s.playing c) (s.bound c)
  bindsLt : ∀ c, s.bound c = true → c < 128
  loading : s.store.startup.isSome ↔ s.mode = .starting
  starting : s.mode = .starting → s.store.target = none ∧ ∀ c, c < 128 → (s.clipAt c).state = .empty

theorem Store.target_none (u : Store) : u.target = none ↔ u.op = none := by
  unfold Store.target
  cases u.op <;> simp

theorem fenced_iff (s : State) (e : Clip) : s.store.target.any (fun r => e.overlaps r.1 r.2) =
    (match s.store.op with
      | some o => e.overlaps o.start o.size
      | none => false) := by
  unfold Store.target
  cases s.store.op <;> rfl

theorem streamsSound_iff (s : State) : StreamsSound s ↔ CatalogueLaw s ∧ FenceLaw s := by
  constructor
  · intro h
    refine ⟨⟨fun c hc => ?_, fun k hk c hbinds => ?_⟩, fun c hc => ⟨?_, ?_⟩, h.loading, fun hmode => ?_⟩
    · have he := h.entry c hc
      exact ⟨he.use, he.empty, fun hempty => he.use.trans (he.unused hempty), fun hret => he.use ▸ he.retiring hret, he.fits⟩
    · have hbound : s.bound c = true := (s.bound_iff c).2 ⟨k, hk, hbinds⟩
      have hc := h.bindsLt c hbound
      exact ⟨hc, (h.entry c hc).bindable hbound⟩
    · exact (h.entry c hc).fenced.trans (fenced_iff s _)
    · intro hfenced
      obtain ⟨hn, hbound⟩ := (h.entry c hc).quiet hfenced
      exact ⟨(h.entry c hc).use.trans hn, hbound⟩
    · obtain ⟨htarget, hempty⟩ := h.starting hmode
      exact ⟨s.store.target_none.1 htarget, hempty⟩
  · rintro ⟨⟨hentries, hbinds⟩, hfences, hloading, hstarting⟩
    have hbindable (c : Nat) (h : s.bound c = true) :
        c < 128 ∧ (s.clipAt c).state = .active ∧ (s.clipAt c).body.map (·.cls) = some .music := by
      obtain ⟨k, hk, hc⟩ := (s.bound_iff c).1 h
      exact hbinds k hk c hc
    refine ⟨fun c hc => ?_, fun c h => (hbindable c h).1, hloading, fun hmode => ?_⟩
    · obtain ⟨huse, hempty, hunused, hretiring, hfits⟩ := hentries c hc
      obtain ⟨hfenced, hquiet⟩ := hfences c hc
      exact ⟨huse, hempty, fun h => huse ▸ hunused h, fun h => huse ▸ hretiring h, hfits, hfenced.trans (fenced_iff s _).symm,
        fun h => huse ▸ hquiet h, fun h => (hbindable c h).2⟩
    · obtain ⟨hop, hempty⟩ := hstarting hmode
      exact ⟨s.store.target_none.2 hop, hempty⟩

section
variable {target : Option (Nat × Nat)} {e : Clip} {n : Nat} {bound : Bool}

/-- One stream more on a clip that is not fenced (R116, R118). -/
theorem Clip.Sound.started (h : e.Sound target n bound) (hbody : e.body ≠ none) (hunfenced : e.fenced = false) :
    Clip.Sound target { e with use := e.use + 1 } (n + 1) bound :=
  ⟨congrArg (· + 1) h.use, h.empty, fun hempty => absurd (h.empty.1 hempty) hbody, fun _ => Nat.succ_pos n, h.fits, h.fenced,
    fun hfenced => absurd (hunfenced ▸ hfenced) Bool.false_ne_true, h.bindable⟩

/-- One stream less (R116). -/
theorem Clip.Sound.dropped (h : e.Sound target (n + 1) bound) : e.dropped.Sound target n bound := by
  have hused : ¬ e.state = .empty := fun hempty => absurd (h.unused hempty) (Nat.succ_ne_zero n)
  have hunfenced : e.fenced = false := by
    by_contra hfenced
    exact absurd (h.quiet (by simpa using hfenced)).1 (Nat.succ_ne_zero n)
  unfold Clip.dropped
  split
  next hlast =>
    obtain ⟨hretiring, hlast⟩ := hlast
    have hn : n = 0 := by
      have := h.use
      omega
    refine ⟨hn.symm, ⟨fun _ => rfl, fun _ => rfl⟩, fun _ => hn, nofun, nofun, ?_, nofun, fun hbound => ?_⟩
    · cases target <;> rfl
    · exact absurd (hretiring.symm.trans (h.bindable hbound).1) nofun
  next hmore =>
    refine ⟨by simp [h.use], h.empty, fun hempty => absurd hempty hused, fun hretiring => ?_, h.fits, h.fenced,
      fun hfenced => absurd (hunfenced ▸ hfenced) Bool.false_ne_true, h.bindable⟩
    by_contra hzero
    exact hmore ⟨hretiring, by rw [h.use]; omega⟩

/-- A binding that goes leaves the entry sound. -/
theorem Clip.Sound.unbound {b : Bool} (h : e.Sound target n bound) (hb : b = true → bound = true) : e.Sound target n b := by
  refine ⟨h.use, h.empty, h.unused, h.retiring, h.fits, h.fenced, fun hfenced => ?_, fun hbound => h.bindable (hb hbound)⟩
  obtain ⟨hn, hunbound⟩ := h.quiet hfenced
  refine ⟨hn, ?_⟩
  by_contra hbound
  rw [hb (by simpa using hbound)] at hunbound
  cases hunbound

/-- A programme may be bound to an ACTIVE clip of class MUSIC that is not fenced (R134). -/
theorem Clip.Sound.bind (h : e.Sound target n bound) (hactive : e.state = .active) (hmusic : e.body.map (·.cls) = some .music)
    (hunfenced : e.fenced = false) (b : Bool) : e.Sound target n b :=
  ⟨h.use, h.empty, h.unused, h.retiring, h.fits, h.fenced,
    fun hfenced => absurd (hunfenced ▸ hfenced) Bool.false_ne_true, fun _ => ⟨hactive, hmusic⟩⟩

end

/-! ### The number of streams on a clip -/

/-- Slot `x` plays clip `c`. -/
def Slot.playsClip (x : Slot) (c : Nat) : Bool := x.state != .idle && x.clip == some c

theorem Slot.playsClip_iff (x : Slot) (c : Nat) : x.playsClip c = true ↔ x.state ≠ .idle ∧ x.clip = some c := by
  simp [Slot.playsClip]

theorem playing_eq (s : State) (c : Nat) : s.playing c = (List.range 24).countP (fun i => (s.slotAt i).playsClip c) :=
  List.countP_eq_length_filter.symm

/-- Only slot `i` counts otherwise: the number changes by what that slot counts. -/
theorem playing_change {s t : State} {i c : Nat} (hi : i < 24)
    (hother : ∀ j, j < 24 → j ≠ i → (t.slotAt j).playsClip c = (s.slotAt j).playsClip c) :
    t.playing c + ((s.slotAt i).playsClip c).toNat = s.playing c + ((t.slotAt i).playsClip c).toNat := by
  have hsplit (u : State) : u.playing c =
      ((List.range 24).erase i).countP (fun j => (u.slotAt j).playsClip c) + ((u.slotAt i).playsClip c).toNat := by
    have hmem : i ∈ List.range 24 := by simpa using hi
    rw [playing_eq, (List.perm_cons_erase hmem).countP_eq, List.countP_cons]
    cases (u.slotAt i).playsClip c <;> rfl
  have hsame : ((List.range 24).erase i).countP (fun j => (t.slotAt j).playsClip c) =
      ((List.range 24).erase i).countP (fun j => (s.slotAt j).playsClip c) := by
    refine List.countP_congr fun j hj => ?_
    obtain ⟨hne, hmem⟩ := (List.Nodup.mem_erase_iff List.nodup_range).1 hj
    rw [hother j (by simpa using hmem) hne]
  rw [hsplit s, hsplit t, hsame]
  omega

theorem playing_congr {s t : State} {c : Nat} (h : ∀ j, j < 24 → (t.slotAt j).playsClip c = (s.slotAt j).playsClip c) :
    t.playing c = s.playing c := by
  rw [playing_eq, playing_eq]
  exact List.countP_congr fun j hj => by rw [h j (by simpa using hj)]

theorem Slot.GoesOn.playsClip {x y : Slot} (h : x.GoesOn y) (c : Nat) : y.playsClip c = x.playsClip c := by
  have hiff : y.playsClip c = true ↔ x.playsClip c = true := by
    rw [Slot.playsClip_iff, Slot.playsClip_iff, h.clip, ne_eq, ne_eq, h.idle]
  exact Bool.eq_iff_iff.2 hiff

/-! ### What stands -/

theorem bound_congr {s t : State} (h : t.prog = s.prog) (c : Nat) : t.bound c = s.bound c := by
  unfold State.bound State.progAt
  rw [h]

/-- What the law reads stands. -/
theorem StreamsSound.of_stand {s t : State} (h : StreamsSound s) (hslot : t.slot = s.slot) (hclip : t.clip = s.clip)
    (hprog : t.prog = s.prog) (hmode : t.mode = s.mode) (htarget : t.store.target = s.store.target)
    (hstartup : t.store.startup.isSome = s.store.startup.isSome) : StreamsSound t := by
  have hplaying (c : Nat) : t.playing c = s.playing c := playing_congr fun j _ => by rw [slotAt_congr hslot]
  refine ⟨fun c hc => ?_, fun c => ?_, ?_, fun hstarting => ?_⟩
  · rw [clipAt_congr hclip, htarget, hplaying, bound_congr hprog]
    exact h.entry c hc
  · rw [bound_congr hprog]
    exact h.bindsLt c
  · rw [hstartup, hmode]
    exact h.loading
  · obtain ⟨hnone, hempty⟩ := h.starting (hmode.symm.trans hstarting)
    exact ⟨htarget.trans hnone, fun c hc => by rw [clipAt_congr hclip]; exact hempty c hc⟩

/-- Clips and slots change, and each entry stays sound; mode, programmes and store stand. -/
theorem StreamsSound.of_entries {s t : State} (h : StreamsSound s)
    (hentry : ∀ c, c < 128 → (t.clipAt c).Sound s.store.target (t.playing c) (s.bound c))
    (hprog : t.prog = s.prog) (hmode : t.mode = s.mode) (htarget : t.store.target = s.store.target)
    (hstartup : t.store.startup.isSome = s.store.startup.isSome)
    (hempty : s.mode = .starting → ∀ c, c < 128 → (t.clipAt c).state = .empty) : StreamsSound t := by
  refine ⟨fun c hc => ?_, fun c => ?_, ?_, fun hstarting => ?_⟩
  · rw [htarget, bound_congr hprog]
    exact hentry c hc
  · rw [bound_congr hprog]
    exact h.bindsLt c
  · rw [hstartup, hmode]
    exact h.loading
  · have hs := hmode.symm.trans hstarting
    exact ⟨htarget.trans (h.starting hs).1, hempty hs⟩

/-- Only programme `k` changes, and the new bindings are ones that it may have. -/
theorem StreamsSound.modProg {s : State} (h : StreamsSound s) (k : Nat) (f : Programme → Programme)
    (hf : ∀ c, (f (s.progAt k)).binds c = true → (s.progAt k).binds c = true ∨ s.Bindable c) :
    StreamsSound (s.modProg k f) := by
  have hbound (c : Nat) (hb : (s.modProg k f).bound c = true) : s.bound c = true ∨ s.Bindable c := by
    obtain ⟨j, hj, hbinds⟩ := (State.bound_iff _ c).1 hb
    rw [State.modProg_progAt] at hbinds
    split at hbinds
    next hkj =>
      rcases hf c hbinds with hold | hnew
      · exact .inl ((s.bound_iff c).2 ⟨k, hkj.2, hold⟩)
      · exact .inr hnew
    next => exact .inl ((s.bound_iff c).2 ⟨j, hj, hbinds⟩)
  refine ⟨fun c hc => ?_, fun c hb => ?_, h.loading, h.starting⟩
  · show (s.clipAt c).Sound s.store.target (s.playing c) ((s.modProg k f).bound c)
    have he := h.entry c hc
    cases hb : (s.modProg k f).bound c with
    | false => exact he.unbound nofun
    | true =>
      rcases hbound c hb with hold | hnew
      · exact he.unbound fun _ => hold
      · exact he.bind hnew.active hnew.music hnew.unfenced true
  · rcases hbound c hb with hold | hnew
    · exact h.bindsLt c hold
    · exact hnew.lt

/-! ### Streams that start and end -/

theorem clipAt_out (s : State) {c : Nat} (hc : 128 ≤ c) : s.clipAt c = default := tget_out _ _ hc

theorem lt_of_body {s : State} {c : Nat} {b : ClipBody} (h : (s.clipAt c).body = some b) : c < 128 := by
  by_contra hout
  rw [clipAt_out s (by omega)] at h
  cases h

/-- A bound clip is not fenced. -/
theorem StreamsSound.unfenced {s : State} (h : StreamsSound s) {c : Nat} (hc : c < 128)
    (hclip : (s.clipAt c).fenced = false ∨ s.bound c = true) : (s.clipAt c).fenced = false := by
  rcases hclip with hclip | hbound
  · exact hclip
  · by_contra hfenced
    have := ((h.entry c hc).quiet (by simpa using hfenced)).2
    rw [hbound] at this
    cases this

/-- A clip that is in the catalogue is there in READY alone. -/
theorem StreamsSound.mode_of_body {s : State} (h : StreamsSound s) {c : Nat} {b : ClipBody} (hb : (s.clipAt c).body = some b) :
    s.mode ≠ .starting := fun hstarting => by
  have hc := lt_of_body hb
  have := (h.entry c hc).empty.1 ((h.starting hstarting).2 c hc)
  rw [hb] at this
  cases this

/-- Slot `i` takes up clip `c`, which is bound or not fenced: a use comes with it (R116, R118). -/
theorem StreamsSound.takesUp {s t : State} (h : StreamsSound s) {i c : Nat} (hi : i < 24) (hbody : (s.clipAt c).body ≠ none)
    (hfree : (s.clipAt c).fenced = false ∨ s.bound c = true) (hwas : ∀ d, (s.slotAt i).playsClip d = false)
    (hnow : ∀ d, (t.slotAt i).playsClip d = decide (c = d)) (hslots : ∀ j, j ≠ i → t.slotAt j = s.slotAt j)
    (hclip : t.clip = tmod s.clip c (fun e => { e with use := e.use + 1 })) (hprog : t.prog = s.prog)
    (hmode : t.mode = s.mode) (hstore : t.store = s.store) : StreamsSound t := by
  obtain ⟨b, hb⟩ := Option.ne_none_iff_exists'.1 hbody
  have hc := lt_of_body hb
  have hcount (d : Nat) : t.playing d = s.playing d + (decide (c = d)).toNat := by
    have hchange := playing_change (s := s) (t := t) (c := d) hi fun j _ hne => by rw [hslots j hne]
    rwa [hwas, hnow] at hchange
  have hclipAt (d : Nat) : t.clipAt d =
      if c = d ∧ c < 128 then { s.clipAt c with use := (s.clipAt c).use + 1 } else s.clipAt d :=
    (congrArg (fun v => tget v d) hclip).trans (tget_tmod ..)
  refine h.of_entries (fun d hd => ?_) hprog hmode (by rw [hstore]) (by rw [hstore])
    fun hstarting => absurd hstarting (h.mode_of_body hb)
  rw [hclipAt, hcount]
  by_cases hcd : c = d
  · subst hcd
    simp only [hc, and_self, if_true, decide_true, Bool.toNat_true]
    exact (h.entry c hc).started hbody (h.unfenced hc hfree)
  · simp only [hcd, false_and, if_false, decide_false, Bool.toNat_false]
    exact h.entry d hd

/-- Slot `i` lets go of its clip: a use goes with it (R116, R123). -/
theorem StreamsSound.letsGo {s t : State} (h : StreamsSound s) {i : Nat} (hi : i < 24) (hplays : (s.slotAt i).state ≠ .idle)
    (hnow : ∀ d, (t.slotAt i).playsClip d = false) (hslots : ∀ j, j ≠ i → t.slotAt j = s.slotAt j)
    (hclip : t.clip = match (s.slotAt i).clip with
      | some d => tmod s.clip d Clip.dropped
      | none => s.clip)
    (hprog : t.prog = s.prog) (hmode : t.mode = s.mode) (htarget : t.store.target = s.store.target)
    (hstartup : t.store.startup = s.store.startup) : StreamsSound t := by
  have hcount (d : Nat) : t.playing d + ((s.slotAt i).playsClip d).toNat = s.playing d := by
    have hchange := playing_change (s := s) (t := t) (c := d) hi fun j _ hne => by rw [hslots j hne]
    rwa [hnow] at hchange
  have hclipAt (d : Nat) (hd : d < 128) : t.clipAt d =
      if (s.slotAt i).playsClip d = true then (s.clipAt d).dropped else s.clipAt d := by
    cases hold : (s.slotAt i).clip with
    | none =>
      rw [hold] at hclip
      rw [clipAt_congr hclip, if_neg (by simp [Slot.playsClip, hold])]
    | some e =>
      rw [hold] at hclip
      have hentry : t.clipAt d = if e = d ∧ e < 128 then (s.clipAt e).dropped else s.clipAt d :=
        (congrArg (fun v => tget v d) hclip).trans (tget_tmod ..)
      rw [hentry]
      by_cases hed : e = d
      · subst hed
        rw [if_pos ⟨rfl, hd⟩, if_pos ((Slot.playsClip_iff _ _).2 ⟨hplays, hold⟩)]
      · rw [if_neg fun h => hed h.1, if_neg]
        rw [Slot.playsClip_iff, hold]
        exact fun hplay => hed (Option.some.inj hplay.2)
  refine h.of_entries (fun d hd => ?_) hprog hmode htarget (by rw [hstartup]) fun hstarting d hd => ?_
  · have he := h.entry d hd
    have hn := hcount d
    rw [hclipAt d hd]
    split
    next hplay =>
      rw [hplay] at hn
      rw [← hn] at he
      exact he.dropped
    next hplay =>
      rw [eq_false_of_ne_true hplay] at hn
      rw [show t.playing d = s.playing d from hn]
      exact he
  · have hempty := (h.starting hstarting).2 d hd
    have hnone : ¬ (s.slotAt i).playsClip d = true := fun hplay => by
      have hzero := (h.entry d hd).unused hempty
      have hn := hcount d
      rw [hplay, hzero] at hn
      cases hn
    rw [hclipAt d hd, if_neg hnone]
    exact hempty

theorem startStream_sound {s : State} (h : StreamsSound s) (i : Nat) (k : StreamKind) (p c g : Nat) (r : Option Nat)
    (hears : Option Bool) (hi : i < 24) (hidle : (s.slotAt i).state = .idle)
    (hclip : (s.clipAt c).fenced = false ∨ s.bound c = true) : StreamsSound (startStream i k p c g r hears s) := by
  rcases startStream_cases i k p c g r hears s with ⟨_, heq⟩ | ⟨b, hbody, heq⟩
  · rwa [heq]
  · refine h.takesUp (c := c) hi (by simp [hbody]) hclip (fun d => by simp [Slot.playsClip, hidle]) (fun d => ?_)
      (fun j hne => startStream_slotAt _ _ _ _ _ _ _ _ hne) ?_ (by simp) (by simp) (by simp)
    · rw [heq, State.modSlot_slotAt, if_pos ⟨rfl, hi⟩, Bool.eq_iff_iff, Slot.playsClip_iff]
      simp [Slot.started]
    · rw [heq]
      rfl

theorem StreamMove.sound {s t : State} (hmove : StreamMove s t) (h : StreamsSound s) : StreamsSound t := by
  cases hmove with
  | stand hslot hclip hprog hstore hmode => exact h.of_stand hslot hclip hprog hmode (by rw [hstore]) (by rw [hstore])
  | rebound k f hf => exact h.modProg k f fun c hc => .inl (hf c hc)
  | started i k p c g r b hi hidle hclip => exact startStream_sound h i k p c g r b hi hidle hclip

theorem StreamMoves.sound {s t : State} (h : StreamMoves s t) (hs : StreamsSound s) : StreamsSound t := by
  induction h with
  | refl => exact hs
  | tail _ hmove ih => exact hmove.sound ih

theorem slotEnded_sound {s : State} (h : StreamsSound s) (i : Nat) (c : Cause) (hi : i < 24)
    (hplays : (s.slotAt i).state ≠ .idle) : StreamsSound (slotEnded i c s) := by
  obtain ⟨hprog, _, _, hmode, hstore⟩ := slotEnded_keeps i c s
  exact h.letsGo hi hplays (fun d => by simp [Slot.playsClip, slotEnded_idle i c s hi])
    (fun j hne => by rw [slotEnded_slotAt, if_neg fun hij => hne hij.1.symm]) (slotEnded_clip i c s) hprog hmode
    (by rw [hstore]; rfl) (by rw [hstore]; rfl)

/-! ### Arrivals -/

/-- A slot changes, and plays what it played. -/
theorem StreamsSound.modSlot {s : State} (h : StreamsSound s) (i : Nat) (f : Slot → Slot)
    (hf : ∀ c, (f (s.slotAt i)).playsClip c = (s.slotAt i).playsClip c) : StreamsSound (s.modSlot i f) := by
  refine h.of_entries (fun c hc => ?_) rfl rfl rfl rfl fun hstarting => (h.starting hstarting).2
  have hcount : (s.modSlot i f).playing c = s.playing c := playing_congr fun j _ => by
    rw [State.modSlot_slotAt]
    split
    next hij => rw [hf, hij.1]
    next => rfl
  rw [hcount]
  exact h.entry c hc

theorem playsClip_of_eq {x y : Slot} (hstate : y.state = .idle ↔ x.state = .idle) (hclip : y.clip = x.clip) (c : Nat) :
    y.playsClip c = x.playsClip c := by
  rw [Bool.eq_iff_iff, Slot.playsClip_iff, Slot.playsClip_iff, hclip, ne_eq, ne_eq, hstate]

/-- Beyond the four programmes there is no pending change. -/
theorem progAt_pending_out (s : State) {k : Nat} (hk : 4 ≤ k) : (s.progAt k).pending = .empty := by
  rw [State.progAt, tget_out _ _ hk]
  rfl

/-- The clip of a pending change is taken up in the place of the clip that the slot plays (R120, R135). -/
theorem changedClip_sound {s : State} (h : StreamsSound s) (k c : Nat) (a l : Nat) (hk : k < 24)
    (hplays : (s.slotAt k).state ≠ .idle) (hbound : s.bound c = true) :
    StreamsSound ((useUp c (match (s.slotAt k).clip with
      | some old => useDown old s
      | none => s)).modSlot k (fun x => { x with clip := some c, addr := a, left := l })) := by
  generalize hu : (match (s.slotAt k).clip with
      | some old => useDown old s
      | none => s) = u
  have hstands : u.slot = s.slot ∧ u.prog = s.prog ∧ u.mode = s.mode ∧ u.store = s.store := by
    subst hu
    split <;> simp
  obtain ⟨hslot, hprog, hmode, hstore⟩ := hstands
  have hclip : u.clip = match (s.slotAt k).clip with
      | some d => tmod s.clip d Clip.dropped
      | none => s.clip := by
    subst hu
    cases (s.slotAt k).clip with
    | none => rfl
    | some d => exact useDown_clip d s
  have hdropped : StreamsSound (u.modSlot k (fun x => { x with clip := none })) := by
    refine h.letsGo hk hplays (fun d => ?_) (fun j hne => ?_) hclip hprog hmode ?_ ?_
    · rw [State.modSlot_slotAt, if_pos ⟨rfl, hk⟩]
      simp [Slot.playsClip]
    · rw [State.modSlot_slotAt, if_neg fun hij => hne hij.1.symm, slotAt_congr hslot]
    · exact congrArg Store.target hstore
    · exact congrArg Store.startup hstore
  have hbound' : (u.modSlot k (fun x => { x with clip := none })).bound c = true := (bound_congr hprog c).trans hbound
  have hc := hdropped.bindsLt c hbound'
  obtain ⟨_, hmusic⟩ := (hdropped.entry c hc).bindable hbound'
  have hstate : ((u.modSlot k (fun x => { x with clip := none })).slotAt k).state ≠ .idle := by
    rw [State.modSlot_slotAt, if_pos ⟨rfl, hk⟩, slotAt_congr hslot]
    exact hplays
  refine hdropped.takesUp (i := k) (c := c) hk (fun hnone => ?_) (.inr hbound') (fun d => ?_) (fun d => ?_) (fun j hne => ?_)
    rfl rfl rfl rfl
  · rw [hnone] at hmusic
    cases hmusic
  · rw [State.modSlot_slotAt, if_pos ⟨rfl, hk⟩]
    simp [Slot.playsClip]
  · rw [State.modSlot_slotAt, if_pos ⟨rfl, hk⟩, Bool.eq_iff_iff, Slot.playsClip_iff]
    have hplaying : ((useUp c u).slotAt k).state ≠ .idle := by
      rw [slotAt_congr (s := s) ((by simp : (useUp c u).slot = u.slot).trans hslot)]
      exact hplays
    simp [hplaying]
  · rw [State.modSlot_slotAt, State.modSlot_slotAt, if_neg fun hij => hne hij.1.symm, if_neg fun hij => hne hij.1.symm]
    rfl

theorem programmePassEnd_sound {s : State} (h : StreamsSound s) (k : Nat) (hk : k < 24)
    (hplays : (s.slotAt k).state ≠ .idle) : StreamsSound (programmePassEnd k s) := by
  unfold programmePassEnd
  dsimp only
  split
  next c hpending =>
    have hlt : k < 4 := by
      by_contra hout
      rw [progAt_pending_out s (by omega)] at hpending
      cases hpending
    have hbound : s.bound c = true := (s.bound_iff c).2 ⟨k, hlt, (Programme.binds_iff _ c).2 (.inr hpending)⟩
    exact (applyPending_streams k _).sound (changedClip_sound h k c _ _ hk hplays hbound)
  next =>
    refine (applyPending_streams k _).sound (h.modSlot k _ fun c => ?_)
    split
    · exact playsClip_of_eq Iff.rfl rfl c
    · rfl
  next =>
    split
    · exact h.modSlot k _ fun c => playsClip_of_eq Iff.rfl rfl c
    · exact h

theorem passEnd_sound {s : State} (h : StreamsSound s) (i : Nat) (hi : i < 24) (hplays : (s.slotAt i).state ≠ .idle) :
    StreamsSound (passEnd i s) := by
  have hended {t : State} (ht : StreamsSound t) : StreamsSound
      (t.modSlot i (fun x => if x.left = 0 ∧ x.state = .playing then { x with state := .ending } else x)) := by
    refine ht.modSlot i _ fun c => ?_
    split
    next hlast =>
      exact playsClip_of_eq (x := t.slotAt i) (y := { t.slotAt i with state := .ending }) (by simp [hlast.2]) rfl c
    next => rfl
  unfold passEnd
  refine hended ?_
  split
  · exact programmePassEnd_sound h i hi hplays
  · split
    · exact h.modSlot i _ fun c => playsClip_of_eq Iff.rfl rfl c
    · exact h
  · exact h

theorem arrive_sound {s : State} (h : StreamsSound s) (i : Nat) (bytes : List Byte) (hi : i < 24)
    (hplays : (s.slotAt i).state ≠ .idle) : StreamsSound (arrive i bytes s) := by
  have hprimed {t : State} (ht : StreamsSound t) : StreamsSound (t.modSlot i Slot.primed) :=
    ht.modSlot i _ fun c => (Slot.GoesOn.primed _).playsClip c
  unfold arrive
  refine hprimed ?_
  have hfilled := h.modSlot i (fun x =>
    { x with buffer := x.buffer ++ bytes.map lawDecode, addr := x.addr + bytes.length, left := x.left - bytes.length,
             underrun := false }) fun c => playsClip_of_eq Iff.rfl rfl c
  split
  · refine passEnd_sound hfilled i hi ?_
    rw [State.modSlot_slotAt, if_pos ⟨rfl, hi⟩]
    exact hplays
  · exact hfilled

theorem fetched_target (f : Fetch) (u : Store) : (u.fetched f).target = u.target := u.suspendAnswered_target

theorem fetchArrival_sound (bytes : List Byte) {s : State} (h : StreamsSound s) (hfetch : FetchLaw s) :
    StreamsSound (fetchArrival bytes s) := by
  have hstore (f : Fetch) : StreamsSound (s.modStore (Store.fetched f)) :=
    h.of_stand rfl rfl rfl rfl (fetched_target f s.store) rfl
  rcases fetchArrival_cases bytes s with ⟨f, hf, _, hlive, heq⟩ | ⟨f, _, _, _, heq⟩ | heq
  · obtain ⟨hslot, hplays, _⟩ := hfetch.1 f hf hlive
    rw [heq]
    exact arrive_sound (hstore f) f.slot bytes hslot hplays
  · rw [heq]
    exact hstore f
  · rwa [heq]

/-! ### The commands of the catalogue and of the store -/

theorem StreamsSound.modClip {s : State} (h : StreamsSound s) (c : Nat) (f : Clip → Clip) (hready : s.mode ≠ .starting)
    (hf : c < 128 → (f (s.clipAt c)).Sound s.store.target (s.playing c) (s.bound c)) : StreamsSound (s.modClip c f) := by
  refine h.of_entries (fun d hd => ?_) rfl rfl rfl rfl fun hstarting => absurd hstarting hready
  show ((s.modClip c f).clipAt d).Sound s.store.target (s.playing d) (s.bound d)
  rw [State.modClip_clipAt]
  split
  next hcd =>
    obtain ⟨rfl, hc⟩ := hcd
    exact hf hc
  next => exact h.entry d hd

theorem State.Admits.sound {s : State} {c : Nat} {e : Clip} (he : s.Admits c e) (h : StreamsSound s) (hc : c < 128) :
    e.Sound s.store.target (s.playing c) (s.bound c) := by
  have huse : e.use = s.playing c := he.use.trans (h.entry c hc).use
  rw [he.unbound, ← huse]
  exact ⟨rfl, he.empty, he.unused, he.retiring, he.fits, he.fenced, fun hfenced => ⟨he.quiet hfenced, rfl⟩, nofun⟩

/-- The entries whose samples overlap the range are fenced (R148). -/
theorem fenceRange_clipAt (start size : Nat) (s : State) {c : Nat} (hc : c < 128) : (fenceRange start size s).clipAt c =
    if (s.clipAt c).overlaps start size then { s.clipAt c with fenced := true } else s.clipAt c := by
  have hentry := forClips_entry State.clipAt (fun _ => True)
    (fun c s => s.modClip c (fun e => if e.overlaps start size then { e with fenced := true } else e))
    (fun _ e => if e.overlaps start size then { e with fenced := true } else e)
    (fun _ _ _ => trivial) (fun c d t hne => by simp [Ne.symm hne]) (fun c t hc _ => by simp [hc]) s trivial c
  rwa [if_pos hc] at hentry

theorem rangeInUse_false {s : State} {start size c : Nat} (h : s.rangeInUse start size = false) (hc : c < 128)
    (hoverlaps : (s.clipAt c).overlaps start size = true) : (s.clipAt c).use = 0 ∧ s.bound c = false := by
  unfold State.rangeInUse at h
  rw [List.any_eq_false] at h
  have hnone := h c (by simpa using hc)
  simpa [hoverlaps] using hnone

/-- No clip has samples in the directory's sector (R114, R150). -/
theorem overlaps_directory {target : Option (Nat × Nat)} {e : Clip} {n : Nat} {bound : Bool} (h : e.Sound target n bound)
    {start size : Nat} (hsector : start + size ≤ 4096) : e.overlaps start size = false := by
  unfold Clip.overlaps
  cases hbody : e.body with
  | none => rfl
  | some b =>
    obtain ⟨hfits, _⟩ := h.fits b hbody
    have hstart : 4096 ≤ b.start := by
      unfold clipFieldsFit at hfits
      simp only [Bool.and_eq_true, decide_eq_true_eq] at hfits
      exact hfits.1.1.1.1.2
    simp only [rangesMeet, Bool.and_eq_false_iff, decide_eq_false_iff_not]
    left
    omega

theorem acceptOperation_sound {s : State} (h : StreamsSound s) (kind : OpKind) (start size : Nat) (data : List Byte)
    (hready : s.mode = .ready) (hop : s.store.op = none)
    (hunused : s.rangeInUse start size = false ∨ start + size ≤ 4096) :
    StreamsSound (acceptOperation kind start size data s) := by
  have hstore := acceptOperation_store kind start size data s
  have hclipAt (c : Nat) (hc : c < 128) : (acceptOperation kind start size data s).clipAt c =
      if (s.clipAt c).overlaps start size then { s.clipAt c with fenced := true } else s.clipAt c :=
    fenceRange_clipAt start size _ hc
  have hplaying (c : Nat) : (acceptOperation kind start size data s).playing c = s.playing c :=
    playing_congr fun j _ => by rw [slotAt_congr (s := s) (by simp)]
  have hnotarget := (s.store.target_none).2 hop
  refine ⟨fun c hc => ?_, fun c => ?_, ?_, fun hstarting => ?_⟩
  · have he := h.entry c hc
    have hunfenced : (s.clipAt c).fenced = false := by rw [he.fenced, hnotarget]; rfl
    rw [hclipAt c hc, hplaying, bound_congr (s := s) (by simp), hstore]
    split
    next hoverlaps =>
      have hquiet : s.playing c = 0 ∧ s.bound c = false := by
        rcases hunused with hrange | hsector
        · exact he.use ▸ rangeInUse_false hrange hc hoverlaps
        · rw [overlaps_directory he hsector] at hoverlaps
          cases hoverlaps
      exact ⟨he.use, he.empty, he.unused, he.retiring, he.fits, hoverlaps.symm, fun _ => hquiet, he.bindable⟩
    next hclear =>
      exact ⟨he.use, he.empty, he.unused, he.retiring, he.fits, hunfenced.trans (eq_false_of_ne_true hclear).symm, he.quiet,
        he.bindable⟩
  · rw [bound_congr (s := s) (by simp)]
    exact h.bindsLt c
  · rw [hstore, show (acceptOperation kind start size data s).mode = s.mode by simp]
    exact h.loading
  · rw [show (acceptOperation kind start size data s).mode = s.mode by simp, hready] at hstarting
    cases hstarting

/-- With the operation its fences are gone (R146). -/
theorem operationEnds_sound {s t : State} (h : StreamsSound s) (htables : TablesStand (liftFences s) t)
    (hop : t.store.op = none) (hstartup : t.store.startup = s.store.startup) : StreamsSound t := by
  have hprog : t.prog = s.prog := htables.prog.trans (by simp)
  have hmode : t.mode = s.mode := htables.mode.trans (by simp)
  have hclipAt (c : Nat) (hc : c < 128) : t.clipAt c = { s.clipAt c with fenced := false } := by
    rw [clipAt_congr htables.clip, liftFences_clipAt s hc]
  have hplaying (c : Nat) : t.playing c = s.playing c :=
    playing_congr fun j _ => by rw [slotAt_congr (s := s) (htables.slot.trans (by simp))]
  have hnotarget := (t.store.target_none).2 hop
  refine ⟨fun c hc => ?_, fun c => ?_, ?_, fun hstarting => ⟨hnotarget, fun c hc => ?_⟩⟩
  · have he := h.entry c hc
    rw [hclipAt c hc, hplaying, bound_congr hprog, hnotarget]
    exact ⟨he.use, he.empty, he.unused, he.retiring, he.fits, rfl, nofun, he.bindable⟩
  · rw [bound_congr hprog]
    exact h.bindsLt c
  · rw [hstartup, hmode]
    exact h.loading
  · rw [hclipAt c hc]
    exact (h.starting (hmode.symm.trans hstarting)).2 c hc

/-! ### The start-up load (R151, R152) -/

/-- What the load keeps of the law while it takes in the directory: that of each entry, with no operation in flight. -/
def EntriesSound (s : State) : Prop :=
  (∀ c, c < 128 → (s.clipAt c).Sound none (s.playing c) (s.bound c)) ∧ ∀ c, s.bound c = true → c < 128

theorem loadEnds_sound {s : State} (h : EntriesSound s) (hop : s.store.op = none) (r : Cause) (n : Nat) :
    StreamsSound (loadEnds r n s) := by
  have hready : (loadEnds r n s).mode = .ready := by simp [loadEnds]
  have hplaying (c : Nat) : (loadEnds r n s).playing c = s.playing c :=
    playing_congr fun j _ => by rw [slotAt_congr (s := s) (by simp)]
  have hbound (c : Nat) : (loadEnds r n s).bound c = s.bound c := bound_congr (by simp) c
  refine ⟨fun c hc => ?_, fun c => ?_, ?_, fun hstarting => ?_⟩
  · rw [clipAt_congr (s := s) (by simp), hplaying, hbound, loadEnds_store,
      show Store.target { s.store with startup := none } = none from (Store.target_none _).2 hop]
    exact h.1 c hc
  · rw [hbound]
    exact h.2 c
  · rw [loadEnds_store, hready]
    simp
  · rw [hready] at hstarting
    cases hstarting

theorem DirEntry.valid_some {e : DirEntry} {c : Nat} {b : ClipBody} {k : Option Nat} (h : e.valid = some (c, b, k)) :
    c < 128 ∧ (clipFieldsFit b.cls b.start b.length (b.loop.getD 0) = true ∧ (b.loop.isSome ↔ b.cls = .music)) ∧
      ∀ j, k = some j → b.cls = .music := by
  unfold DirEntry.valid at h
  split at h
  · cases h
  next cls _ =>
    split_ifs at h with hrange hunbound hbinding
    · obtain ⟨_, hfits⟩ : ¬ 127 < e.clip ∧ clipFieldsFit cls e.start e.length e.loop = true := by simpa [not_or] using hrange
      cases h
      exact ⟨by omega, clipBody_fits hfits, nofun⟩
    · obtain ⟨_, hfits⟩ : ¬ 127 < e.clip ∧ clipFieldsFit cls e.start e.length e.loop = true := by simpa [not_or] using hrange
      cases h
      exact ⟨by omega, clipBody_fits hfits, fun _ _ => by simpa [clipBody] using (not_or.1 hbinding).2⟩

/-- A clip that the directory describes is taken in where the catalogue is empty (R152). -/
theorem EntriesSound.takesIn {s : State} (h : EntriesSound s) {c : Nat} {b : ClipBody} (hc : c < 128)
    (hfits : clipFieldsFit b.cls b.start b.length (b.loop.getD 0) = true ∧ (b.loop.isSome ↔ b.cls = .music))
    (hempty : (s.clipAt c).state = .empty) :
    EntriesSound (s.modClip c (fun _ => { state := .active, body := some b, use := 0, fenced := false })) := by
  refine ⟨fun d hd => ?_, h.2⟩
  show (State.clipAt _ d).Sound none (s.playing d) (s.bound d)
  rw [State.modClip_clipAt]
  split
  next hcd =>
    obtain ⟨rfl, _⟩ := hcd
    have he := h.1 c hc
    have hunbound : s.bound c = false := by
      by_contra hbound
      have hactive := (he.bindable (by simpa using hbound)).1
      rw [hempty] at hactive
      cases hactive
    rw [he.unused hempty, hunbound]
    refine ⟨rfl, ⟨nofun, nofun⟩, fun _ => rfl, nofun, fun d hd => ?_, rfl, nofun, nofun⟩
    cases hd
    exact hfits
  next => exact h.1 d hd

theorem EntriesSound.binds {s : State} (h : EntriesSound s) (k : Nat) {c : Nat} (hc : s.Bindable c) :
    EntriesSound (bindProgramme k c s) := by
  unfold bindProgramme
  split
  · have hbound (d : Nat) (hd : (s.modProg k (fun g => { g with clip := some c, pending := .empty })).bound d = true) :
        s.bound d = true ∨ d = c := by
      obtain ⟨j, hj, hbinds⟩ := (State.bound_iff _ d).1 hd
      rw [State.modProg_progAt] at hbinds
      split at hbinds
      next =>
        have hset : some c = some d := by simpa [Programme.binds_iff] using hbinds
        exact .inr (Option.some.inj hset).symm
      next => exact .inl ((s.bound_iff d).2 ⟨j, hj, hbinds⟩)
    refine ⟨fun d hd => ?_, fun d hd => ?_⟩
    · show (s.clipAt d).Sound none (s.playing d) (State.bound _ d)
      have he := h.1 d hd
      cases hb : (s.modProg k (fun g => { g with clip := some c, pending := .empty })).bound d with
      | false => exact he.unbound nofun
      | true =>
        rcases hbound d hb with hold | rfl
        · exact he.unbound fun _ => hold
        · exact he.bind hc.active hc.music hc.unfenced true
    · rcases hbound d hd with hold | rfl
      · exact h.2 d hold
      · exact hc.lt
  · exact h

theorem takeEntry_sound (dir : List Byte) (acc : State × Nat) (i : Nat) (h : EntriesSound acc.1) :
    EntriesSound (takeEntry dir acc i).1 := by
  unfold takeEntry
  dsimp only
  split
  · exact h
  next c b k hvalid =>
    obtain ⟨hc, hfits, hmusic⟩ := DirEntry.valid_some hvalid
    split
    · exact h
    next hempty =>
      have htaken := h.takesIn hc hfits (by simpa using hempty)
      split
      next j => exact htaken.binds j ⟨hc, by simp [hc], by simp [hc, hmusic j rfl], by simp [hc]⟩
      next => exact htaken

theorem takeEntries_sound (dir : List Byte) (l : List Nat) (acc : State × Nat) (h : EntriesSound acc.1) :
    EntriesSound (l.foldl (takeEntry dir) acc).1 := by
  induction l generalizing acc with
  | nil => exact h
  | cons i l ih => exact ih _ (takeEntry_sound dir acc i h)

/-- While the load runs there is no operation (R151). -/
theorem StreamsSound.entries {s : State} (h : StreamsSound s) (hloading : s.loading.isSome) :
    EntriesSound s ∧ s.store.op = none := by
  have hstarting : s.mode = .starting := h.loading.1 (by simpa [State.loading] using hloading)
  have htarget := (h.starting hstarting).1
  exact ⟨⟨fun c hc => htarget ▸ h.entry c hc, h.bindsLt⟩, (Store.target_none _).1 htarget⟩

theorem startupNoStore_sound {s : State} (h : StreamsSound s) : StreamsSound (startupNoStore s) := by
  unfold startupNoStore
  split
  next hloading =>
    obtain ⟨hentries, hop⟩ := h.entries hloading
    exact loadEnds_sound hentries hop .noStore 0
  next => exact h

theorem startupLoadEnd_sound (dir : List Byte) {s : State} (h : StreamsSound s) : StreamsSound (startupLoadEnd dir s) := by
  unfold startupLoadEnd
  split
  next hread =>
    have hloading : s.loading.isSome := by
      rcases hread.1 with hload | hload <;> (rw [hload]; rfl)
    obtain ⟨hentries, hop⟩ := h.entries hloading
    have hrequested : EntriesSound (s.modStore (fun u => { u with request := some (lastRead dir) })) := hentries
    dsimp only
    split
    · refine loadEnds_sound (takeEntries_sound dir _ _ hrequested) ?_ .ok _
      rw [takeEntries_store]
      exact hop
    · exact loadEnds_sound hrequested hop .bad 0
  next => exact h

/-! ### Every move -/

theorem fetchGrant_sound {s : State} (h : StreamsSound s) : StreamsSound (fetchGrant s) := by
  rcases fetchGrant_cases s with ⟨i, _, _, _, heq⟩ | heq
  · rw [heq]
    exact h.of_stand rfl rfl rfl rfl s.store.suspendErase_target
      (congrArg Option.isSome s.store.suspendErase_fields.2.2.1)
  · rwa [heq]

theorem PlayMove.sound {s t : State} (hmove : PlayMove s t) (hfetch : FetchLaw s) (h : StreamsSound s) : StreamsSound t := by
  cases hmove with
  | stand htables hstore =>
    exact h.of_stand htables.slot htables.clip htables.prog htables.mode hstore.target hstore.startup
  | slot i f hf => exact h.modSlot i f hf.playsClip
  | programme k f hf => exact h.modProg k f hf
  | starts k hk hidle => exact (startProgramme_streams k s hk hidle).sound h
  | prompts i p c g r b hp hstream hfree hfenced =>
    obtain ⟨_, hi, hidle, _⟩ := freeSlot_some s i hfree
    exact startStream_sound h i .caller p c g r b hi hidle (.inl hfenced)
  | queued => exact h.of_stand rfl rfl rfl rfl rfl rfl
  | ready p => exact (headReady_streams p s).sound h
  | flushed => exact h.of_stand rfl rfl rfl rfl rfl rfl
  | ends i c hi hidle => exact (reachIdle_streams i c s hi).sound (slotEnded_sound h i c hi hidle)
  | catalogued c e he => exact h.modClip c _ (by simp [he.ready]) (he.sound h)
  | retires c hc hactive hunbound hused =>
    have he := h.entry c hc
    obtain ⟨b, hb⟩ : ∃ b, (s.clipAt c).body = some b := Option.ne_none_iff_exists'.1 fun hnone => by
      rw [he.empty.2 hnone] at hactive
      cases hactive
    refine h.modClip c _ (h.mode_of_body hb) fun _ => ?_
    exact ⟨he.use, by simp [hb], nofun, fun _ => he.use ▸ hused, he.fits, he.fenced, he.quiet, fun hbound => by
      rw [hunbound] at hbound
      cases hbound⟩
  | granted => exact fetchGrant_sound h
  | arrived bytes => exact fetchArrival_sound bytes h hfetch
  | accepts kind start size data hready hop hunused => exact acceptOperation_sound h kind start size data hready hop hunused
  | operationEnds htables hop _ _ hstartup => exact operationEnds_sound h htables hop hstartup
  | noStore => exact startupNoStore_sound h
  | loads dir => exact startupLoadEnd_sound dir h
  | reset htables hstore =>
    have hreset := (streamsSound_iff State.reset).2 ⟨reset_catalogueLaw, reset_fenceLaw⟩
    exact hreset.of_stand htables.slot htables.clip htables.prog htables.mode (by rw [hstore]) (by rw [hstore])

theorem PlayMoves.sound {s t : State} (h : PlayMoves s t) (hfetch : FetchLaw s) (hs : StreamsSound s) : StreamsSound t := by
  induction h with
  | refl => exact hs
  | tail hmoves hmove ih => exact hmove.sound (PlayMoves.fetchLaw hmoves hfetch) ih

end Sys2Proof.Machine

open Sys2Proof Sys2Proof.Machine

/-- Settles O55: every step is a chain of moves of the streams; each keeps the law of every entry, where the fetch is that of
a slot in use. -/
theorem catalogueStaysTrue : Obligations.CatalogueStaysTrue := by
  intro s t hfetch hs hstep
  exact (streamsSound_iff t).1 ((step_play s t hstep).sound hfetch ((streamsSound_iff s).2 hs))

end

section
/-! SUPPORT. The slots with their kinds and targets, and the slot wait list, under the moves of the streams (R117, R129,
R130). -/

namespace Sys2Proof.Machine

/-! ### The law of the slots and of the wait list -/

/-- S0 to S3 are the programmes' slots, a general slot in use plays a WHISPER or CALLER stream of one position, and no position
has two streams of one kind. -/
structure SlotsSound (s : State) : Prop where
  programmes : ∀ i, i < 4 → (s.slotAt i).kind = some .programme ∧ (s.slotAt i).target = some i
  general : ∀ i, 4 ≤ i → i < 24 → (s.slotAt i).state ≠ .idle → ∃ p, p < 16 ∧ (s.plays i .whisper p ∨ s.plays i .caller p)
  unique : ∀ i, i < 24 → ∀ j, j < 24 → ∀ k p, s.plays i k p → s.plays j k p → i = j

/-- A position may stand in the wait list: it has items, and no whisper stream (R129). -/
structure State.Waits (s : State) (p : Nat) : Prop where
  lt : p < 16
  queue : s.queueAt p ≠ []
  stream : s.streamOf .whisper p = none

/-- Each position of the wait list waits, in one place. -/
def WaitSound (s : State) : Prop := s.waitList.Nodup ∧ ∀ p, p ∈ s.waitList → s.Waits p

/-- While a position waits no general slot is free. -/
def WaitServed (s : State) : Prop := s.waitList ≠ [] → s.freeSlot = none

theorem slotLaw_iff (s : State) : SlotLaw s ↔ SlotsSound s ∧ WaitSound s ∧ WaitServed s := by
  constructor
  · rintro ⟨hprogrammes, hgeneral, hunique, hnodup, hwaits, hserved⟩
    exact ⟨⟨hprogrammes, hgeneral, hunique⟩, ⟨hnodup, fun p hp =>
      have ⟨hlt, hqueue, hstream⟩ := hwaits p hp
      ⟨hlt, hqueue, hstream⟩⟩, hserved⟩
  · rintro ⟨hslots, ⟨hnodup, hwaits⟩, hserved⟩
    exact ⟨hslots.programmes, hslots.general, hslots.unique, hnodup,
      fun p hp => ⟨(hwaits p hp).lt, (hwaits p hp).queue, (hwaits p hp).stream⟩, hserved⟩

/-! ### What the law reads of a slot -/

/-- The slot plays the stream that it played, or stays IDLE. -/
structure Slot.SameStream (x y : Slot) : Prop where
  idle : y.state = .idle ↔ x.state = .idle
  kind : y.kind = x.kind
  target : y.target = x.target

theorem Slot.SameStream.refl (x : Slot) : x.SameStream x := ⟨Iff.rfl, rfl, rfl⟩

theorem Slot.SameStream.of_slot {s t : State} (h : t.slot = s.slot) (i : Nat) : (s.slotAt i).SameStream (t.slotAt i) := by
  rw [slotAt_congr h]
  exact .refl _

theorem Slot.SameStream.trans {x y z : Slot} (h : x.SameStream y) (h' : y.SameStream z) : x.SameStream z :=
  ⟨h'.idle.trans h.idle, h'.kind.trans h.kind, h'.target.trans h.target⟩

theorem Slot.GoesOn.sameStream {x y : Slot} (h : x.GoesOn y) : x.SameStream y := ⟨h.idle, h.kind, h.target⟩

theorem plays_iff_of_same {s t : State} {i : Nat} (h : (s.slotAt i).SameStream (t.slotAt i)) (k : StreamKind) (p : Nat) :
    t.plays i k p ↔ s.plays i k p := by
  unfold State.plays
  rw [ne_eq, ne_eq, h.idle, h.kind, h.target]

theorem streamOf_none_iff (s : State) (k : StreamKind) (p : Nat) :
    s.streamOf k p = none ↔ ∀ i, 4 ≤ i → i < 24 → ¬ s.plays i k p := by
  refine ⟨fun h i hi hi' => streamOf_none s k p h i hi hi', fun h => ?_⟩
  cases hfound : s.streamOf k p with
  | none => rfl
  | some i =>
    obtain ⟨hi, hi', hplays⟩ := streamOf_some s k p i hfound
    exact absurd hplays (h i hi hi')

theorem freeSlot_none_iff (s : State) : s.freeSlot = none ↔ ∀ i, 4 ≤ i → i < 24 → (s.slotAt i).state ≠ .idle := by
  refine ⟨freeSlot_none s, fun h => ?_⟩
  cases hfound : s.freeSlot with
  | none => rfl
  | some i =>
    obtain ⟨hi, hi', hidle, _⟩ := freeSlot_some s i hfound
    exact absurd hidle (h i hi hi')

theorem SlotsSound.of_same {s t : State} (h : SlotsSound s) (hsame : ∀ i, i < 24 → (s.slotAt i).SameStream (t.slotAt i)) :
    SlotsSound t := by
  refine ⟨fun i hi => ?_, fun i hi hi' hstate => ?_, fun i hi j hj k p hpi hpj => ?_⟩
  · rw [(hsame i (by omega)).kind, (hsame i (by omega)).target]
    exact h.programmes i hi
  · obtain ⟨p, hp, hplays⟩ := h.general i hi hi' (mt (hsame i hi').idle.2 hstate)
    exact ⟨p, hp, by rwa [plays_iff_of_same (hsame i hi'), plays_iff_of_same (hsame i hi')]⟩
  · exact h.unique i hi j hj k p ((plays_iff_of_same (hsame i hi) k p).1 hpi) ((plays_iff_of_same (hsame j hj) k p).1 hpj)

theorem State.Waits.of_same {s t : State} {p : Nat} (h : s.Waits p) (hqueue : t.queueAt p = s.queueAt p)
    (hsame : ∀ i, 4 ≤ i → i < 24 → (s.slotAt i).SameStream (t.slotAt i)) : t.Waits p := by
  refine ⟨h.lt, hqueue ▸ h.queue, (streamOf_none_iff ..).2 fun i hi hi' => ?_⟩
  rw [plays_iff_of_same (hsame i hi hi')]
  exact (streamOf_none_iff ..).1 h.stream i hi hi'

theorem SlotLaw.of_same {s t : State} (h : SlotLaw s) (hsame : ∀ i, i < 24 → (s.slotAt i).SameStream (t.slotAt i))
    (hqueue : t.queue = s.queue) (hwait : t.waitList = s.waitList) : SlotLaw t := by
  obtain ⟨hslots, ⟨hnodup, hwaits⟩, hserved⟩ := (slotLaw_iff s).1 h
  refine (slotLaw_iff t).2 ⟨hslots.of_same hsame, ⟨hwait ▸ hnodup, fun p hp => ?_⟩, fun hne => ?_⟩
  · exact (hwaits p (hwait ▸ hp)).of_same (queueAt_congr hqueue p) fun i _ hi => hsame i hi
  · rw [freeSlot_none_iff]
    exact fun i hi hi' => mt (hsame i hi').idle.1 ((freeSlot_none_iff s).1 (hserved (hwait ▸ hne)) i hi hi')

theorem SlotLaw.of_stand {s t : State} (h : SlotLaw s) (hslot : t.slot = s.slot) (hqueue : t.queue = s.queue)
    (hwait : t.waitList = s.waitList) : SlotLaw t :=
  h.of_same (fun i _ => .of_slot hslot i) hqueue hwait

/-! ### Streams that start -/

/-- A general slot alone plays a whisper or a caller stream. -/
theorem SlotsSound.not_plays {s : State} (h : SlotsSound s) {k : StreamKind} {p : Nat} (hk : k ≠ .programme)
    (hnone : s.streamOf k p = none) {j : Nat} (hj : j < 24) : ¬ s.plays j k p := by
  intro hplays
  by_cases hgeneral : 4 ≤ j
  · exact (streamOf_none_iff ..).1 hnone j hgeneral hj hplays
  · have hkind := (h.programmes j (by omega)).1
    rw [hplays.2.1] at hkind
    exact hk (Option.some.inj hkind)

/-- A stream has started in slot `i`: slot and stream fit, and the position had no stream of the kind. -/
theorem SlotsSound.started {s t : State} (h : SlotsSound s) {i p : Nat} {k : StreamKind} (hi : i < 24)
    (hslots : ∀ j, j ≠ i → t.slotAt j = s.slotAt j) (hstate : (t.slotAt i).state ≠ .idle)
    (hkind : (t.slotAt i).kind = some k) (htarget : (t.slotAt i).target = some p)
    (hprogramme : i < 4 → k = .programme ∧ p = i) (hgeneral : 4 ≤ i → p < 16 ∧ (k = .whisper ∨ k = .caller))
    (hnew : ∀ j, j < 24 → j ≠ i → ¬ s.plays j k p) : SlotsSound t := by
  have hplays : t.plays i k p := ⟨hstate, hkind, htarget⟩
  have hother {j : Nat} (hne : j ≠ i) (k' : StreamKind) (p' : Nat) : t.plays j k' p' ↔ s.plays j k' p' :=
    plays_iff_of_same (by rw [hslots j hne]; exact .refl _) k' p'
  have halone {j : Nat} {k' : StreamKind} {p' : Nat} (hj : j < 24) (hpi : t.plays i k' p') (hpj : t.plays j k' p') : j = i := by
    by_contra hne
    have hk : k' = k := Option.some.inj (hpi.2.1.symm.trans hkind)
    have hp : p' = p := Option.some.inj (hpi.2.2.symm.trans htarget)
    exact hnew j hj hne (hk ▸ hp ▸ (hother hne k' p').1 hpj)
  refine ⟨fun j hj => ?_, fun j hj hj' hbusy => ?_, fun a ha b hb k' p' hpa hpb => ?_⟩
  · by_cases hji : j = i
    · subst hji
      obtain ⟨rfl, rfl⟩ := hprogramme hj
      exact ⟨hkind, htarget⟩
    · rw [hslots j hji]
      exact h.programmes j hj
  · by_cases hji : j = i
    · subst hji
      obtain ⟨hp, rfl | rfl⟩ := hgeneral hj
      · exact ⟨p, hp, .inl hplays⟩
      · exact ⟨p, hp, .inr hplays⟩
    · rw [hslots j hji] at hbusy
      obtain ⟨q, hq, hstream⟩ := h.general j hj hj' hbusy
      exact ⟨q, hq, by rwa [hother hji, hother hji]⟩
  · by_cases hai : a = i
    · subst hai
      exact (halone hb hpa hpb).symm
    · by_cases hbi : b = i
      · subst hbi
        exact halone ha hpb hpa
      · exact h.unique a ha b hb k' p' ((hother hai k' p').1 hpa) ((hother hbi k' p').1 hpb)

/-- The programme's own slot takes its stream, and no general slot changes. -/
theorem startProgramme_slotLaw (k : Nat) {s : State} (h : SlotLaw s) (hk : k < 4) : SlotLaw (startProgramme k s) := by
  unfold startProgramme
  split
  · exact h
  next c _ =>
    rcases startStream_cases k .programme k c Config.unity none none s with ⟨_, heq⟩ | ⟨b, _, heq⟩
    · rwa [heq]
    obtain ⟨hslots, ⟨hnodup, hwaits⟩, hserved⟩ := (slotLaw_iff s).1 h
    have hother {j : Nat} (hne : j ≠ k) : (startStream k .programme k c Config.unity none none s).slotAt j = s.slotAt j :=
      startStream_slotAt _ _ _ _ _ _ _ _ hne
    have hown : (startStream k .programme k c Config.unity none none s).slotAt k =
        Slot.started .programme k c b Config.unity none none ((s.slotAt k).carried .programme) := by
      rw [heq, State.modSlot_slotAt, if_pos ⟨rfl, by omega⟩]
      rfl
    have hgeneral (i : Nat) (hi : 4 ≤ i) :
        (startStream k .programme k c Config.unity none none s).slotAt i = s.slotAt i := hother (by omega)
    refine (slotLaw_iff _).2 ⟨hslots.started (i := k) (p := k) (k := .programme) (by omega) (fun j => hother)
      (by rw [hown]; exact nofun) (by rw [hown]; rfl) (by rw [hown]; rfl) (fun _ => ⟨rfl, rfl⟩) (fun hge => by omega) ?_,
      ⟨by simpa using hnodup, fun p hp => ?_⟩, fun hne => ?_⟩
    · rintro j hj hne ⟨hstate, hkind, htarget⟩
      by_cases hlow : j < 4
      · rw [(hslots.programmes j hlow).2] at htarget
        exact hne (Option.some.inj htarget)
      · obtain ⟨q, _, hwhisper | hcaller⟩ := hslots.general j (by omega) hj hstate
        · exact absurd (hkind.symm.trans hwhisper.2.1) nofun
        · exact absurd (hkind.symm.trans hcaller.2.1) nofun
    · exact (hwaits p (by simpa using hp)).of_same (queueAt_congr (by simp) p) fun i hi _ => by
        rw [hgeneral i hi]
        exact .refl _
    · rw [freeSlot_none_iff]
      intro i hi hi'
      rw [hgeneral i hi]
      exact (freeSlot_none_iff s).1 (hserved (by simpa using hne)) i hi hi'

/-! ### The head of a whisper queue -/

/-- Slot `i` takes the first usable item of p's list, or no item is usable and p's queue is empty (R37, R38). -/
theorem startHead_cases (p i : Nat) (l : List WhisperItem) (s : State) :
    ((startHead p i l s).1 = true ∧ ∃ c b g q,
        (startHead p i l s).2.slot = tmod s.slot i (fun x => Slot.started .whisper p c b g none none (x.carried .whisper)) ∧
          (startHead p i l s).2.queue = tset s.queue p q) ∨
      ((startHead p i l s).1 = false ∧ (startHead p i l s).2.slot = s.slot ∧
        (startHead p i l s).2.queue = tset s.queue p []) := by
  induction l generalizing s with
  | nil => exact .inr ⟨rfl, rfl, rfl⟩
  | cons it rest ih =>
    unfold startHead
    split
    next husable =>
      obtain ⟨_, hcls, _⟩ := (whisperUsable_iff s it.clip).1 husable
      obtain ⟨b, hb, _⟩ := Option.map_eq_some_iff.1 hcls
      refine .inl ⟨rfl, it.clip, b, it.gain, rest, ?_, by simp⟩
      rcases startStream_cases i .whisper p it.clip it.gain none none (s.setQueue p rest) with ⟨hnone, _⟩ | ⟨d, hd, heq⟩
      · exact absurd (hb.symm.trans hnone) nofun
      · cases hd.symm.trans hb
        exact congrArg State.slot heq
    next =>
      have htail := ih (s.post .floor .whisperEnded (some p) (some it.clip) (some .unavailable) none)
      simpa only [State.post_slot, State.post_queue] using htail

theorem tset_other {α : Type} [Inhabited α] {n : Nat} (t : Tab n α) (p : Nat) (a : α) {r : Nat} (hne : r ≠ p) :
    tget (tset t p a) r = tget t r := by
  rw [tget_tset, if_neg fun h => hne h.1.symm]

/-- What is known while general slot `i` is given away: it is free, and the slots are in order. -/
structure State.Gives (s : State) (i : Nat) : Prop where
  slots : SlotsSound s
  general : 4 ≤ i
  lt : i < 24
  idle : (s.slotAt i).state = .idle

/-- The whisper stream of a position that had none. -/
theorem startHead_true {p i : Nat} {l : List WhisperItem} {s t : State} (h : s.Gives i) (hp : p < 16)
    (hstream : s.streamOf .whisper p = none) (heq : startHead p i l s = (true, t)) :
    SlotsSound t ∧ (∀ j, j ≠ i → t.slotAt j = s.slotAt j) ∧ t.plays i .whisper p ∧
      (∀ r, r ≠ p → t.queueAt r = s.queueAt r) ∧ t.waitList = s.waitList := by
  have hwait : t.waitList = s.waitList := by
    have : (startHead p i l s).2.waitList = s.waitList := by simp
    rwa [heq] at this
  rcases startHead_cases p i l s with ⟨_, c, b, g, q, hslot, hqueue⟩ | ⟨hfalse, _⟩
  · rw [heq] at hslot hqueue
    have hslotAt (j : Nat) : t.slotAt j = if i = j ∧ i < 24
        then Slot.started .whisper p c b g none none ((s.slotAt i).carried .whisper) else s.slotAt j :=
      (congrArg (fun v => tget v j) hslot).trans (tget_tmod ..)
    have hown : t.slotAt i = Slot.started .whisper p c b g none none ((s.slotAt i).carried .whisper) := by
      rw [hslotAt, if_pos ⟨rfl, h.lt⟩]
    have hother (j : Nat) (hne : j ≠ i) : t.slotAt j = s.slotAt j := by rw [hslotAt, if_neg fun hij => hne hij.1.symm]
    have hplays : t.plays i .whisper p := by
      refine ⟨?_, ?_, ?_⟩ <;> rw [hown]
      · exact nofun
      · rfl
      · rfl
    refine ⟨h.slots.started h.lt hother hplays.1 hplays.2.1 hplays.2.2 (fun hlow => ?_) (fun _ => ⟨hp, .inl rfl⟩)
      (fun j hj _ => h.slots.not_plays (by simp) hstream hj), hother, hplays, fun r hr => ?_, hwait⟩
    · exact absurd hlow (by have := h.general; omega)
    · exact (congrArg (fun v => tget v r) hqueue).trans (tset_other _ _ _ hr)
  · rw [heq] at hfalse
    cases hfalse

theorem startHead_false {p i : Nat} {l : List WhisperItem} {s t : State} (heq : startHead p i l s = (false, t)) :
    t.slot = s.slot ∧ (∀ r, r ≠ p → t.queueAt r = s.queueAt r) ∧ t.waitList = s.waitList := by
  have hwait : t.waitList = s.waitList := by
    have : (startHead p i l s).2.waitList = s.waitList := by simp
    rwa [heq] at this
  rcases startHead_cases p i l s with ⟨htrue, _⟩ | ⟨_, hslot, hqueue⟩
  · rw [heq] at htrue
    cases htrue
  · rw [heq] at hslot hqueue
    exact ⟨hslot, fun r hr => (congrArg (fun v => tget v r) hqueue).trans (tset_other _ _ _ hr), hwait⟩

theorem State.Gives.of_slot {s t : State} {i : Nat} (h : s.Gives i) (hslot : t.slot = s.slot) : t.Gives i :=
  ⟨h.slots.of_same fun j _ => .of_slot hslot j, h.general, h.lt,
    by rw [slotAt_congr hslot]; exact h.idle⟩

/-- What serving the wait list with slot `i` leaves: a position still waits only where the slot was taken (R130). -/
structure State.Given (s : State) (i : Nat) (t : State) : Prop where
  slots : SlotsSound t
  waits : WaitSound t
  others : ∀ j, j ≠ i → t.slotAt j = s.slotAt j
  taken : t.waitList ≠ [] → (t.slotAt i).state ≠ .idle

theorem serveWaiting_given (i : Nat) (l : List Nat) (s : State) (h : s.Gives i) (hnodup : l.Nodup)
    (hwaits : ∀ p, p ∈ l → s.Waits p) : s.Given i (serveWaiting i l s) := by
  induction l generalizing s with
  | nil =>
    exact ⟨(h.of_slot (t := s.setWait []) rfl).slots, ⟨List.nodup_nil, fun p hp => absurd hp List.not_mem_nil⟩,
      fun _ _ => rfl, fun hne => absurd rfl hne⟩
  | cons p ps ih =>
    obtain ⟨hnotin, hnodup'⟩ := List.nodup_cons.1 hnodup
    obtain ⟨hlt, hqueue, hstream⟩ := hwaits p (by simp)
    have hset : (s.setWait ps).Gives i := h.of_slot rfl
    have hlater (r : Nat) (hr : r ∈ ps) : r ≠ p ∧ s.Waits r :=
      ⟨fun hrp => hnotin (hrp ▸ hr), hwaits r (List.mem_cons_of_mem p hr)⟩
    unfold serveWaiting
    rcases hhead : startHead p i (s.queueAt p) (s.setWait ps) with ⟨b, t⟩
    cases b with
    | true =>
      obtain ⟨hslots, hothers, hplays, hqueues, hwait⟩ := startHead_true hset hlt hstream hhead
      refine ⟨hslots, ⟨hwait ▸ hnodup', fun r hr => ?_⟩, hothers, fun _ => hplays.1⟩
      obtain ⟨hne, hr'⟩ := hlater r (by rwa [hwait] at hr)
      refine ⟨hr'.lt, by rw [hqueues r hne]; exact hr'.queue, (streamOf_none_iff ..).2 fun j hj hj' hplaysj => ?_⟩
      by_cases hji : j = i
      · subst hji
        exact hne (Option.some.inj (hplaysj.2.2.symm.trans hplays.2.2))
      · refine (streamOf_none_iff ..).1 hr'.stream j hj hj' ?_
        exact (plays_iff_of_same (by rw [hothers j hji]; exact .refl _) _ _).1 hplaysj
    | false =>
      obtain ⟨hslot, hqueues, hwait⟩ := startHead_false hhead
      have hrest := ih t (hset.of_slot hslot) hnodup' fun r hr =>
        have ⟨hne, hr'⟩ := hlater r hr
        hr'.of_same (hqueues r hne) fun j _ _ => .of_slot hslot j
      exact ⟨hrest.slots, hrest.waits, fun j hne => (hrest.others j hne).trans (slotAt_congr hslot j), hrest.taken⟩

theorem headReady_slotLaw (p : Nat) {s : State} (h : SlotLaw s) (hp : p < 16) : SlotLaw (headReady p s) := by
  obtain ⟨hslots, ⟨hnodup, hwaits⟩, hserved⟩ := (slotLaw_iff s).1 h
  unfold headReady
  split
  · exact h
  next hready =>
    obtain ⟨hqueue, hstream, hnotin⟩ : s.queueAt p ≠ [] ∧ s.streamOf .whisper p = none ∧ p ∉ s.waitList := by
      simpa [not_or] using hready
    have hwaitsp : s.Waits p := ⟨hp, hqueue, hstream⟩
    split
    next hfull =>
      refine (slotLaw_iff _).2 ⟨hslots.of_same fun _ _ => .refl _, ⟨?_, fun r hr => ?_⟩, fun _ => hfull⟩
      · exact List.nodup_append.2 ⟨hnodup, List.nodup_singleton p, fun a ha b hb hab => by
          rw [List.mem_singleton.1 hb] at hab
          exact hnotin (hab ▸ ha)⟩
      · have hr' : s.Waits r := by
          rcases List.mem_append.1 hr with hold | hnew
          · exact hwaits r hold
          · rwa [List.mem_singleton.1 hnew]
        exact hr'.of_same rfl fun _ _ _ => .refl _
    next i hfree =>
      have hempty : s.waitList = [] := by
        by_contra hne
        rw [hserved hne] at hfree
        cases hfree
      obtain ⟨hi, hi', hidle, _⟩ := freeSlot_some s i hfree
      have hgives : s.Gives i := ⟨hslots, hi, hi', hidle⟩
      rcases hhead : startHead p i (s.queueAt p) s with ⟨b, t⟩
      cases b with
      | true =>
        obtain ⟨hslots', _, _, _, hwait⟩ := startHead_true hgives hp hstream hhead
        have hnone : t.waitList = [] := hwait.trans hempty
        refine (slotLaw_iff t).2 ⟨hslots', ⟨by simp [hnone], fun r hr => ?_⟩, fun hne => absurd hnone hne⟩
        rw [hnone] at hr
        cases hr
      | false =>
        obtain ⟨hslot, _, hwait⟩ := startHead_false hhead
        show SlotLaw (serveWaiting i t.waitList t)
        rw [show t.waitList = [] from hwait.trans hempty]
        have hgiven := serveWaiting_given i [] t (hgives.of_slot hslot) List.nodup_nil nofun
        exact (slotLaw_iff _).2 ⟨hgiven.slots, hgiven.waits, fun hne => absurd rfl hne⟩

/-! ### A slot reaches IDLE -/

/-- The stream of an ended slot is gone, and no other has changed. -/
theorem slotEnded_slots (i : Nat) (c : Cause) {s : State} (h : SlotsSound s) (hi : i < 24) : SlotsSound (slotEnded i c s) := by
  have hother {j : Nat} (hne : j ≠ i) : (slotEnded i c s).slotAt j = s.slotAt j := by
    rw [slotEnded_slotAt, if_neg fun hij => hne hij.1.symm]
  have hbusy {j : Nat} (hplays : ((slotEnded i c s).slotAt j).state ≠ .idle) : j ≠ i := fun hji =>
    hplays (hji ▸ slotEnded_idle i c s hi)
  refine ⟨fun j hj => ?_, fun j hj hj' hstate => ?_, fun a ha b hb k p hpa hpb => ?_⟩
  · by_cases hji : j = i
    · subst hji
      rw [slotEnded_slotAt, if_pos ⟨rfl, hi⟩]
      simp [Slot.fresh, hj]
    · rw [hother hji]
      exact h.programmes j hj
  · have hji := hbusy hstate
    rw [hother hji] at hstate
    obtain ⟨p, hp, hplays⟩ := h.general j hj hj' hstate
    have hsame := plays_iff_of_same (s := s) (t := slotEnded i c s) (i := j) (by rw [hother hji]; exact .refl _)
    exact ⟨p, hp, by rwa [hsame, hsame]⟩
  · have hsame {j : Nat} (hji : j ≠ i) := plays_iff_of_same (s := s) (t := slotEnded i c s) (i := j)
      (by rw [hother hji]; exact .refl _) k p
    exact h.unique a ha b hb k p ((hsame (hbusy hpa.1)).1 hpa) ((hsame (hbusy hpb.1)).1 hpb)

theorem slotEnded_waits (i : Nat) (c : Cause) {s : State} (hi : i < 24) {p : Nat} (h : s.Waits p) :
    (slotEnded i c s).Waits p := by
  obtain ⟨_, hqueue, _⟩ := slotEnded_keeps i c s
  refine ⟨h.lt, by rw [queueAt_congr hqueue]; exact h.queue, (streamOf_none_iff ..).2 fun j hj hj' hplays => ?_⟩
  have hji : j ≠ i := fun hji => hplays.1 (hji ▸ slotEnded_idle i c s hi)
  refine (streamOf_none_iff ..).1 h.stream j hj hj' ((plays_iff_of_same ?_ _ _).1 hplays)
  rw [slotEnded_slotAt, if_neg fun hij => hji hij.1.symm]
  exact .refl _

/-- A general slot that is given to the wait list is taken, or nobody waits any more (R130). -/
theorem serveEnded_slotLaw (i : Nat) (c : Cause) {s : State} (h : SlotLaw s) (hi : 4 ≤ i) (hi' : i < 24) :
    SlotLaw (serveWaiting i (slotEnded i c s).waitList (slotEnded i c s)) := by
  obtain ⟨hslots, ⟨hnodup, hwaits⟩, hserved⟩ := (slotLaw_iff s).1 h
  obtain ⟨_, _, hwait, _⟩ := slotEnded_keeps i c s
  rw [hwait]
  have hgiven := serveWaiting_given i s.waitList (slotEnded i c s)
    ⟨slotEnded_slots i c hslots hi', hi, hi', slotEnded_idle i c s hi'⟩ hnodup fun p hp => slotEnded_waits i c hi' (hwaits p hp)
  refine (slotLaw_iff _).2 ⟨hgiven.slots, hgiven.waits, fun hne => (freeSlot_none_iff _).2 fun j hj hj' => ?_⟩
  by_cases hji : j = i
  · rw [hji]
    exact hgiven.taken hne
  · have hwaiting : s.waitList ≠ [] := fun hnone => by
      rw [hnone] at hne
      exact hne rfl
    rw [hgiven.others j hji, slotEnded_slotAt, if_neg fun hij => hji hij.1.symm]
    exact (freeSlot_none_iff s).1 (hserved hwaiting) j hj hj'

/-- A programme's slot is no general slot: who waits goes on waiting. -/
theorem slotEnded_slotLaw (k : Nat) (c : Cause) {s : State} (h : SlotLaw s) (hk : k < 4) : SlotLaw (slotEnded k c s) := by
  obtain ⟨hslots, ⟨hnodup, hwaits⟩, hserved⟩ := (slotLaw_iff s).1 h
  obtain ⟨_, _, hwait, _⟩ := slotEnded_keeps k c s
  refine (slotLaw_iff _).2 ⟨slotEnded_slots k c hslots (by omega), ⟨hwait ▸ hnodup, fun p hp => ?_⟩, fun hne => ?_⟩
  · exact slotEnded_waits k c (by omega) (hwaits p (hwait ▸ hp))
  · refine (freeSlot_none_iff _).2 fun j hj hj' => ?_
    rw [slotEnded_slotAt, if_neg fun hkj => by omega]
    exact (freeSlot_none_iff s).1 (hserved (hwait ▸ hne)) j hj hj'

theorem settleProgramme_slotLaw (k : Nat) {s : State} (h : SlotLaw s) (hk : k < 4) : SlotLaw (settleProgramme k s) := by
  have hpending : SlotLaw (applyPending k s) := h.of_stand (by simp) (by simp) (by simp)
  unfold settleProgramme
  dsimp only
  split
  · exact startProgramme_slotLaw k hpending hk
  · exact hpending

theorem reachIdle_slotLaw (i : Nat) (c : Cause) {s : State} (h : SlotLaw s) (hi : i < 24)
    (hplays : (s.slotAt i).state ≠ .idle) : SlotLaw (reachIdle i c s) := by
  obtain ⟨hslots, _⟩ := (slotLaw_iff s).1 h
  by_cases hlow : i < 4
  · obtain ⟨hkind, htarget⟩ := hslots.programmes i hlow
    rw [reachIdle_eq, hkind, htarget]
    exact settleProgramme_slotLaw i (slotEnded_slotLaw i c h hlow) hlow
  · have hserved := serveEnded_slotLaw i c h (by omega) hi
    obtain ⟨p, hp, ⟨_, hkind, htarget⟩ | ⟨_, hkind, htarget⟩⟩ := hslots.general i (by omega) hi hplays
    · rw [reachIdle_eq, hkind, htarget]
      exact headReady_slotLaw p hserved hp
    · rw [reachIdle_eq, hkind, htarget]
      exact hserved

/-! ### Arrivals -/

theorem modSlot_sameStream (i : Nat) (f : Slot → Slot) (hf : ∀ x : Slot, x.SameStream (f x)) (s : State) (j : Nat) :
    (s.slotAt j).SameStream ((s.modSlot i f).slotAt j) := by
  rw [State.modSlot_slotAt]
  split
  next hij => exact hij.1 ▸ hf _
  next => exact .refl _

theorem programmePassEnd_sameStream (k : Nat) (s : State) (j : Nat) :
    (s.slotAt j).SameStream ((programmePassEnd k s).slotAt j) := by
  have hpending (t : State) : (applyPending k t).slotAt j = t.slotAt j := slotAt_congr (by simp) j
  unfold programmePassEnd
  dsimp only
  split
  next c _ =>
    rw [hpending]
    refine Slot.SameStream.trans (y := (useUp c (match (s.slotAt k).clip with
      | some old => useDown old s
      | none => s)).slotAt j) ?_ (modSlot_sameStream k _ ?_ _ j)
    · exact .of_slot (by split <;> simp) j
    · exact fun _ => ⟨Iff.rfl, rfl, rfl⟩
  · rw [hpending]
    refine modSlot_sameStream k _ (fun x => ?_) s j
    split
    · exact ⟨Iff.rfl, rfl, rfl⟩
    · exact .refl _
  · split
    · refine modSlot_sameStream k _ ?_ s j
      exact fun _ => ⟨Iff.rfl, rfl, rfl⟩
    · exact .refl _

theorem passEnd_sameStream (i : Nat) (s : State) (j : Nat) : (s.slotAt j).SameStream ((passEnd i s).slotAt j) := by
  have hending (x : Slot) : x.SameStream (if x.left = 0 ∧ x.state = .playing then { x with state := .ending } else x) := by
    split
    next hlast => exact ⟨by simp [hlast.2], rfl, rfl⟩
    next => exact .refl _
  unfold passEnd
  refine Slot.SameStream.trans ?_ (modSlot_sameStream i _ hending _ j)
  split
  · exact programmePassEnd_sameStream i s j
  · split
    · refine modSlot_sameStream i _ ?_ s j
      exact fun _ => ⟨Iff.rfl, rfl, rfl⟩
    · exact .refl _
  · exact .refl _

theorem arrive_sameStream (i : Nat) (bytes : List Byte) (s : State) (j : Nat) :
    (s.slotAt j).SameStream ((arrive i bytes s).slotAt j) := by
  unfold arrive
  refine Slot.SameStream.trans ?_ (modSlot_sameStream i _ (fun x => (Slot.GoesOn.primed x).sameStream) _ j)
  refine Slot.SameStream.trans (modSlot_sameStream i (fun x =>
    { x with buffer := x.buffer ++ bytes.map lawDecode, addr := x.addr + bytes.length, left := x.left - bytes.length,
             underrun := false }) (fun _ => ⟨Iff.rfl, rfl, rfl⟩) s j) ?_
  split
  · exact passEnd_sameStream ..
  · exact .refl _

theorem fetchArrival_slotLaw (bytes : List Byte) {s : State} (h : SlotLaw s) : SlotLaw (fetchArrival bytes s) := by
  refine h.of_same (fun j _ => ?_) (by simp) (by simp)
  rcases fetchArrival_cases bytes s with ⟨f, _, _, _, heq⟩ | ⟨f, _, _, _, heq⟩ | heq
  · rw [heq]
    exact arrive_sameStream f.slot bytes (s.modStore (Store.fetched f)) j
  · rw [heq]
    exact .refl _
  · rw [heq]
    exact .refl _

/-! ### The whisper queues -/

theorem SlotLaw.queued {s : State} (h : SlotLaw s) (p : Nat) (q : List WhisperItem) (hq : q ≠ []) :
    SlotLaw (s.setQueue p q) := by
  obtain ⟨hslots, ⟨hnodup, hwaits⟩, hserved⟩ := (slotLaw_iff s).1 h
  refine (slotLaw_iff _).2 ⟨hslots.of_same fun _ _ => .refl _, ⟨hnodup, fun r hr => ?_⟩, hserved⟩
  obtain ⟨hlt, hqueue, hstream⟩ := hwaits r hr
  refine ⟨hlt, ?_, hstream⟩
  rw [State.setQueue_queueAt]
  split
  · exact hq
  · exact hqueue

theorem SlotLaw.flushed {s : State} (h : SlotLaw s) (p : Nat) : SlotLaw ((s.setQueue p []).setWait (s.waitList.erase p)) := by
  obtain ⟨hslots, ⟨hnodup, hwaits⟩, hserved⟩ := (slotLaw_iff s).1 h
  refine (slotLaw_iff _).2 ⟨hslots.of_same fun _ _ => .refl _, ⟨hnodup.erase p, fun r hr => ?_⟩, fun hne => ?_⟩
  · obtain ⟨hne, hmem⟩ := hnodup.mem_erase_iff.1 hr
    exact (hwaits r hmem).of_same (tset_other _ _ _ hne) fun _ _ _ => .refl _
  · exact hserved fun hnone => hne (by simp [hnone])

/-! ### Every move -/

theorem takeEntry_waits (dir : List Byte) (acc : State × Nat) (i : Nat) :
    (takeEntry dir acc i).1.queue = acc.1.queue ∧ (takeEntry dir acc i).1.waitList = acc.1.waitList := by
  unfold takeEntry
  repeat' split
  all_goals simp

theorem takeEntries_waits (dir : List Byte) (l : List Nat) (acc : State × Nat) :
    (l.foldl (takeEntry dir) acc).1.queue = acc.1.queue ∧ (l.foldl (takeEntry dir) acc).1.waitList = acc.1.waitList := by
  induction l generalizing acc with
  | nil => exact ⟨rfl, rfl⟩
  | cons i l ih =>
    obtain ⟨hqueue, hwait⟩ := ih (takeEntry dir acc i)
    obtain ⟨hqueue', hwait'⟩ := takeEntry_waits dir acc i
    exact ⟨hqueue.trans hqueue', hwait.trans hwait'⟩

theorem startupLoadEnd_waits (dir : List Byte) (s : State) :
    (startupLoadEnd dir s).queue = s.queue ∧ (startupLoadEnd dir s).waitList = s.waitList := by
  unfold startupLoadEnd
  split
  · split
    · simp [takeEntries_waits]
    · simp
  · exact ⟨rfl, rfl⟩

theorem startupNoStore_waits (s : State) :
    (startupNoStore s).queue = s.queue ∧ (startupNoStore s).waitList = s.waitList := by
  unfold startupNoStore
  split <;> simp

theorem PlayMove.slotLaw {s t : State} (hmove : PlayMove s t) (h : SlotLaw s) : SlotLaw t := by
  cases hmove with
  | stand htables => exact h.of_stand htables.slot htables.queue htables.waitList
  | slot i f hf =>
    refine h.of_same (fun j _ => ?_) rfl rfl
    rw [State.modSlot_slotAt]
    split
    next hij => exact hij.1 ▸ hf.sameStream
    next => exact .refl _
  | programme => exact h.of_stand rfl rfl rfl
  | starts k hk => exact startProgramme_slotLaw k h hk
  | prompts i p c g r b hp hstream hfree =>
    obtain ⟨hslots, _, hserved⟩ := (slotLaw_iff s).1 h
    have hempty : s.waitList = [] := by
      by_contra hne
      rw [hserved hne] at hfree
      cases hfree
    obtain ⟨hi, hi', _⟩ := freeSlot_some s i hfree
    rcases startStream_cases i .caller p c g r b s with ⟨_, heq⟩ | ⟨d, _, heq⟩
    · rwa [heq]
    have hown : (startStream i .caller p c g r b s).slotAt i =
        Slot.started .caller p c d g r b ((s.slotAt i).carried .caller) := by
      rw [heq, State.modSlot_slotAt, if_pos ⟨rfl, hi'⟩]
      rfl
    have hnone : (startStream i .caller p c g r b s).waitList = [] := (by simp : _ = s.waitList).trans hempty
    refine (slotLaw_iff _).2 ⟨hslots.started (p := p) (k := .caller) hi' (fun j => startStream_slotAt _ _ _ _ _ _ _ _)
      (by rw [hown]; exact nofun) (by rw [hown]; rfl) (by rw [hown]; rfl) (fun hlow => by omega) (fun _ => ⟨hp, .inr rfl⟩)
      fun j hj _ => hslots.not_plays (by simp) hstream hj, ⟨hnone ▸ List.nodup_nil, fun r hr => ?_⟩,
      fun hne => absurd hnone hne⟩
    rw [hnone] at hr
    cases hr
  | queued p q hq => exact h.queued p q hq
  | ready p hp => exact headReady_slotLaw p h hp
  | flushed p => exact h.flushed p
  | ends i c hi hidle => exact reachIdle_slotLaw i c h hi hidle
  | catalogued => exact h.of_stand rfl rfl rfl
  | retires => exact h.of_stand rfl rfl rfl
  | granted => exact h.of_stand (by simp) (by simp) (by simp)
  | arrived bytes => exact fetchArrival_slotLaw bytes h
  | accepts => exact h.of_stand (by simp) (by simp) (by simp)
  | operationEnds htables =>
    exact h.of_stand (htables.slot.trans (by simp)) (htables.queue.trans (by simp)) (htables.waitList.trans (by simp))
  | noStore =>
    obtain ⟨hqueue, hwait⟩ := startupNoStore_waits s
    exact h.of_stand (startupNoStore_slot s) hqueue hwait
  | loads dir =>
    obtain ⟨hqueue, hwait⟩ := startupLoadEnd_waits dir s
    exact h.of_stand (startupLoadEnd_slot dir s) hqueue hwait
  | reset htables => exact reset_slotLaw.of_stand htables.slot htables.queue htables.waitList

theorem PlayMoves.slotLaw {s t : State} (h : PlayMoves s t) (hs : SlotLaw s) : SlotLaw t := by
  induction h with
  | refl => exact hs
  | tail _ hmove ih => exact hmove.slotLaw ih

end Sys2Proof.Machine

open Sys2Proof Sys2Proof.Machine

/-- Settles O54: every step is a chain of moves of the streams, and each move keeps the slots' kinds, the streams unique and the
wait list served. -/
theorem slotsStayExclusive : Obligations.SlotsStayExclusive := fun s t _ hs hstep => (step_play s t hstep).slotLaw hs

end

section
/-! SUPPORT. Two changes of one slot, streams that start, listener counts that change, and the arbiter's choice; the statements
on programmes' listeners and on the arbiter (R118, R133, R140). -/

namespace Sys2Proof.Machine

/-! ### Changes of one slot -/

theorem tmod_tmod {α : Type} [Inhabited α] {n : Nat} (t : Tab n α) (i : Nat) (f g : α → α) :
    tmod (tmod t i f) i g = tmod t i (fun x => g (f x)) := by
  refine tab_ext _ _ fun j hj => ?_
  rw [tget_tmod, tget_tmod, tget_tmod, tget_tmod]
  by_cases hij : i = j
  · subst hij
    simp [hj]
  · simp [hij]

theorem State.modSlot_modSlot (s : State) (i : Nat) (f g : Slot → Slot) :
    (s.modSlot i f).modSlot i g = s.modSlot i (fun x => g (f x)) :=
  congrArg (fun v => { s with slot := v }) (tmod_tmod s.slot i f g)

/-- A change of a slot is a matter of the slot as it stands. -/
theorem State.modSlot_congr (s : State) {i : Nat} {f g : Slot → Slot} (h : f (s.slotAt i) = g (s.slotAt i)) :
    s.modSlot i f = s.modSlot i g :=
  congrArg (fun x => { s with slot := tset s.slot i x }) h

theorem State.modSlot_same (s : State) {i : Nat} {f : Slot → Slot} (h : f (s.slotAt i) = s.slotAt i) : s.modSlot i f = s := by
  have hslot : tmod s.slot i f = s.slot := tab_ext _ _ fun j _ => by
    rw [tget_tmod]
    split
    next hij => exact hij.1 ▸ h
    next => rfl
  exact congrArg (fun v => { s with slot := v }) hslot

/-! ### Streams that start -/

theorem startStream_of_body {s : State} {c : Nat} {b : ClipBody} (h : (s.clipAt c).body = some b) (i : Nat) (k : StreamKind)
    (p g : Nat) (r : Option Nat) (hears : Option Bool) : startStream i k p c g r hears s =
      (useUp c s).modSlot i (fun x => Slot.started k p c b g r hears (x.carried k)) := by
  unfold startStream
  rw [h]

theorem startProgramme_of_clip {s : State} {k c : Nat} (h : (s.progAt k).clip = some c) :
    startProgramme k s = startStream k .programme k c Config.unity none none s := by
  unfold startProgramme
  rw [h]

/-! ### Listener counts (R133) -/

/-- Programme `k` with one listener more. -/
def State.listenerMore (s : State) (k : Nat) : State := s.modProg k (fun g => { g with listeners := g.listeners + 1 })

/-- Programme `k` with one listener less. -/
def State.listenerLess (s : State) (k : Nat) : State := s.modProg k (fun g => { g with listeners := g.listeners - 1 })

theorem listenerMore_clip (s : State) (k : Nat) : ((s.listenerMore k).progAt k).clip = (s.progAt k).clip := by
  rw [State.listenerMore, State.modProg_progAt]
  split <;> rfl

/-- A programme that has listeners, or no clip, only counts. -/
theorem listenerUp_counts {k : Nat} {s : State} (h : 0 < (s.progAt k).listeners ∨ (s.progAt k).clip = none) :
    listenerUp k s = s.listenerMore k := by
  refine if_neg fun hrise => ?_
  obtain ⟨hnone, hclip⟩ := hrise
  rcases h with hsome | hno
  · omega
  · have hclip' : ((s.listenerMore k).progAt k).clip.isSome := hclip
    rw [listenerMore_clip, hno] at hclip'
    cases hclip'

/-- The first listener of a programme with a clip reaches its slot. -/
theorem listenerUp_first {k c : Nat} {s : State} (hnone : (s.progAt k).listeners = 0) (hclip : (s.progAt k).clip = some c) :
    listenerUp k s = match (s.slotAt k).state with
      | .idle => startProgramme k (s.listenerMore k)
      | .stopping => (s.listenerMore k).modSlot k Slot.reversed
      | _ => s.listenerMore k := by
  have hisSome : ((s.listenerMore k).progAt k).clip.isSome := by rw [listenerMore_clip, hclip]; rfl
  exact if_pos ⟨hnone, hisSome⟩

/-- What the first listener makes of a STOPPING slot (R133). -/
theorem Slot.reversed_cases (x : Slot) :
    (x.begun = true → x.ramp = 40 → x.reversed = { x with state := .playing, dir := none, cause := none }) ∧
    (x.begun = true → x.ramp ≠ 40 → x.reversed = { x with dir := some .rising, cause := none }) ∧
    (x.begun = false → x.buffer.length < 128 → x.left ≠ 0 →
      x.reversed = { x with state := .priming, ramp := 40, dir := none, cause := none }) ∧
    (x.begun = false → 128 ≤ x.buffer.length ∨ x.left = 0 →
      x.reversed = { x with state := if x.left = 0 then .ending else .playing, ramp := 40, dir := none, begun := true,
                            cause := none }) := by
  unfold Slot.reversed
  refine ⟨fun hbegun hramp => ?_, fun hbegun hramp => ?_, fun hbegun hfill hleft => ?_, fun hbegun hready => ?_⟩
  · exact (if_pos hbegun).trans (if_pos hramp)
  · exact (if_pos hbegun).trans (if_neg hramp)
  · rw [if_neg (by simp [hbegun])]
    refine if_neg fun hready => ?_
    rcases hready.2 with hfull | hend
    · exact absurd hfull (Nat.not_le_of_lt hfill)
    · exact hleft hend
  · rw [if_neg (by simp [hbegun])]
    exact if_pos ⟨rfl, hready⟩

theorem listenerLess_listeners (s : State) {k : Nat} (hk : k < 4) :
    ((s.listenerLess k).progAt k).listeners = (s.progAt k).listeners - 1 := by
  rw [State.listenerLess, State.modProg_progAt, if_pos ⟨rfl, hk⟩]

/-! ### The arbiter's choice (R140) -/

/-- The first slot that asks, from the slot after the last served one on, is the one with the shortest way from there. -/
theorem nextAsking_eq {s : State} {i : Nat} (hlast : s.store.lastServed < 24) (hi : i < 24) (hasks : (s.slotAt i).asks = true)
    (hfirst : ∀ j, j < 24 → (s.slotAt j).asks = true →
      (i + 48 - (s.store.lastServed + 1)) % 24 ≤ (j + 48 - (s.store.lastServed + 1)) % 24) : s.nextAsking = some i := by
  have hplace : (s.store.lastServed + 1 + (i + 48 - (s.store.lastServed + 1)) % 24) % 24 = i := by omega
  unfold State.nextAsking
  rw [List.find?_map, Option.map_eq_some_iff]
  refine ⟨(i + 48 - (s.store.lastServed + 1)) % 24, ?_, hplace⟩
  rw [List.find?_range_eq_some]
  refine ⟨?_, List.mem_range.2 (Nat.mod_lt _ (by omega)), fun j hj => ?_⟩
  · show (s.slotAt ((s.store.lastServed + 1 + (i + 48 - (s.store.lastServed + 1)) % 24) % 24)).asks = true
    rw [hplace]
    exact hasks
  by_contra hearlier
  have hle := hfirst ((s.store.lastServed + 1 + j) % 24) (by omega) (by simpa using hearlier)
  omega

theorem Store.suspendErase_eq (u : Store) : u.suspendErase = { u with
    op := if u.activity = .eraseRunning then u.op.map (fun o => { o with phase := .suspending, clock := 0 }) else u.op
    request := if u.activity = .eraseRunning ∧ u.op.isSome then some .suspend else u.request } := by
  unfold Store.suspendErase
  cases hop : u.op with
  | none =>
    cases u
    cases hop
    simp
  | some o =>
    by_cases ha : u.activity = .eraseRunning
    · simp [ha]
    · cases u
      cases hop
      simp [ha]

end Sys2Proof.Machine

open Sys2Proof Sys2Proof.Machine

/-- Settles O13: the rise and the fall of the count by the slot's state. -/
theorem listenerChangesReachTheSlot : Obligations.ListenerChangesReachTheSlot := by
  intro k s hk up down x
  obtain ⟨hstop, hturn, hstay⟩ := stop_by_state .noListeners x
  obtain ⟨hplay, hrise, hprime, hprimed⟩ := x.reversed_cases
  refine ⟨listenerUp_counts, fun c hnone hclip => ?_, fun hmore => ?_, fun hlast => ?_⟩
  · have hfirst := listenerUp_first hnone hclip
    have hreversed (hstate : x.state = .stopping) {f : Slot → Slot} (hf : x.reversed = f x) :
        listenerUp k s = up.modSlot k f := by
      rw [hfirst, show (s.slotAt k).state = .stopping from hstate]
      exact (s.listenerMore k).modSlot_congr hf
    refine ⟨fun b hidle hbody => ?_, fun hsounds => ?_, fun hstate hbegun hramp => hreversed hstate (hplay hbegun hramp),
      fun hstate hbegun hramp => hreversed hstate (hrise hbegun hramp),
      fun hstate hbegun hfill hleft => hreversed hstate (hprime hbegun hfill hleft),
      fun hstate hbegun hready => hreversed hstate (hprimed hbegun hready)⟩
    · rw [hfirst, show (s.slotAt k).state = .idle from hidle]
      exact (startProgramme_of_clip ((listenerMore_clip s k).trans hclip)).trans 
        (startStream_of_body (s := s.listenerMore k) hbody ..)
    · rw [hfirst]
      rcases hsounds with hstate | hstate | hstate <;> rw [show (s.slotAt k).state = _ from hstate] <;> rfl
  · refine if_neg fun hzero => ?_
    have hcount := (listenerLess_listeners s hk).symm.trans hzero
    omega
  · have hdown : listenerDown k s = down.modSlot k (Slot.stop .noListeners) := 
      if_pos ((listenerLess_listeners s hk).trans (by omega))
    rw [hdown]
    exact ⟨fun h => down.modSlot_congr (hstop h), fun h hdir => down.modSlot_congr (hturn h hdir),
      fun h => down.modSlot_same (hstay h)⟩

/-- Settles O38: the first asking slot in turn is found, and the grant suspends a running erase. -/
theorem fetchesAreGrantedInTurn : Obligations.FetchesAreGrantedInTurn := by
  intro s u asks free after
  have hasks (i : Nat) : (s.slotAt i).asks = true ↔ asks i := Slot.asks_iff _
  have hfreeIff : s.store.linkFree = true ∧ s.store.read = none ↔ free := by
    rw [Store.linkFree_iff, and_assoc]
    rfl
  refine ⟨fun i hfree hlast hi hask hfirst => ?_, fun hnot => ?_⟩
  · have hnext := nextAsking_eq hlast hi ((hasks i).2 hask) fun j hj hj' => hfirst j hj ((hasks j).1 hj')
    show Host.Outcome.next (fetchGrant s) = _
    unfold fetchGrant
    rw [if_pos (hfreeIff.2 hfree), hnext]
    dsimp only [State.modStore]
    rw [Store.suspendErase_eq]
    rfl
  · show Host.Outcome.next (fetchGrant s) = _
    rcases fetchGrant_cases s with ⟨i, hfree, hread, hnext, _⟩ | heq
    · obtain ⟨hi, hask⟩ := nextAsking_some hnext
      rcases hnot with hbusy | hsilent
      · exact absurd (hfreeIff.1 ⟨hfree, hread⟩) hbusy
      · exact absurd ((hasks i).1 hask) (hsilent i hi)
    · rw [heq]

end

section
/-! SUPPORT. The fields and the checks of the commands of the catalogue, and the statements on CLIP_LOAD, CLIP_DELETE,
SET_PROGRAMME, CALLER_PROMPT and STOP_PROMPT (R114, R115, R126, R127, R134). -/

namespace Sys2Proof.Machine

/-! ### Fields -/

theorem field3_succ (b : Byte) (bs : List Byte) (i : Nat) : field3 (b :: bs) (i + 1) = field3 bs i := rfl

theorem field3_toByte (v : Nat) (bs : List Byte) (h : v < 16777216) :
    field3 (toByte (v / 65536) :: toByte (v / 256) :: toByte v :: bs) 0 = v := by
  simp only [field3, field2, field1_zero, field1_succ, toByte, BitVec.toNat_ofNat]
  omega

/-! ### Checks -/

/-- The class of a class byte (Table 12-1). -/
def classNumber (cl : Nat) : ClipClass := if cl = 0 then .music else if cl = 1 then .whisper else .caller

theorem classOf_some {cl : Nat} (h : cl ≤ 2) : classOf cl = some (classNumber cl) := by
  interval_cases cl <;> rfl

theorem classOf_none {cl : Nat} (h : 2 < cl) : classOf cl = none := by
  obtain ⟨n, rfl⟩ := Nat.exists_eq_add_of_lt h
  rw [show 2 + n + 1 = n + 3 by omega]
  rfl

theorem classNumber_music {cl : Nat} : classNumber cl = .music ↔ cl = 0 := by
  unfold classNumber
  split_ifs <;> simp_all

theorem clipFieldsFit_iff (cls : ClipClass) (start len loop : Nat) : clipFieldsFit cls start len loop = true ↔
    start % 64 = 0 ∧ 4096 ≤ start ∧ 1 ≤ len ∧ len ≤ 16777215 ∧ start + len ≤ 16777216 ∧ (cls = .music → loop < len) := by
  have hloop : (cls != .music || decide (loop < len)) = true ↔ (cls = .music → loop < len) := by
    by_cases hmusic : cls = .music <;> simp [hmusic]
  unfold clipFieldsFit
  simp only [Bool.and_eq_true, hloop, beq_iff_eq, decide_eq_true_eq, and_assoc]
  rfl

theorem bound_iff_clip (s : State) (c : Nat) :
    s.bound c = true ↔ ∃ k, k < 4 ∧ ((s.progAt k).clip = some c ∨ (s.progAt k).pending = .clip c) := by
  simp only [State.bound_iff, Programme.binds_iff]

theorem accepted_op (s : State) : s.accepted.store.op = s.store.op := s.store.dropRead_fields.2.1

/-! ### CLIP_LOAD -/

/-- What CLIP_LOAD does with its fields (R114). -/
theorem clipLoadCore_eq {s : State} {ps : List Byte} {c cl start len loop : Nat} (hc : field1 ps 0 = c) (hcl : field1 ps 1 = cl)
    (hstart : field3 ps 2 = start) (hlen : field3 ps 5 = len) (hloop : field3 ps 8 = loop) :
    (¬ (c < 128 ∧ cl ≤ 2 ∧ clipFieldsFit (classNumber cl) start len loop = true) →
      clipLoadCore ps s = (s, .bare .range)) ∧
    (c < 128 ∧ cl ≤ 2 ∧ clipFieldsFit (classNumber cl) start len loop = true →
      ((s.clipAt c).state = .retiring ∨ 0 < (s.clipAt c).use ∨ s.bound c = true ∨ (s.clipAt c).fenced = true →
        clipLoadCore ps s = (s, .bare .inUse)) ∧
      (¬ ((s.clipAt c).state = .retiring ∨ 0 < (s.clipAt c).use ∨ s.bound c = true ∨ (s.clipAt c).fenced = true) →
        clipLoadCore ps s = (s.modClip c (fun _ =>
          { state := .active, body := some (clipBody (classNumber cl) start len loop), use := 0,
            fenced := s.underOperation start len }), .done))) := by
  unfold clipLoadCore
  simp only [hc, hcl, hstart, hlen, hloop]
  refine ⟨fun hnot => ?_, fun ⟨hlt, hle, hfits⟩ => ?_⟩
  · by_cases hle : cl ≤ 2
    · rw [classOf_some hle]
      refine if_pos ?_
      by_contra hin
      obtain ⟨hlt, hfits⟩ := not_or.1 hin
      exact hnot ⟨by omega, hle, by simpa using hfits⟩
    · rw [classOf_none (by omega)]
  · rw [classOf_some hle]
    have hin : ¬ (127 < c ∨ (!clipFieldsFit (classNumber cl) start len loop) = true) := by
      simp only [hfits, Bool.not_true, Bool.false_eq_true, or_false]
      omega
    exact ⟨fun hbusy => (if_neg hin).trans (if_pos hbusy), fun hfree => (if_neg hin).trans (if_neg hfree)⟩

theorem clipBody_eq (cl start len loop : Nat) : clipBody (classNumber cl) start len loop =
    { cls := if cl = 0 then .music else if cl = 1 then .whisper else .caller, start := start, length := len,
      loop := if cl = 0 then some loop else none } := by
  unfold clipBody
  simp only [classNumber_music]
  rfl

theorem underOperation_eq (s : State) (start len : Nat) : s.underOperation start len =
    (match s.store.op with
      | some o => decide (start < o.start + o.size ∧ o.start < start + len)
      | none => false) := by
  unfold State.underOperation rangesMeet
  cases s.store.op with
  | none => rfl
  | some o => exact (Bool.decide_and ..).symm

theorem accepted_underOperation (s : State) (start len : Nat) :
    s.accepted.underOperation start len = s.underOperation start len := by
  rw [underOperation_eq, underOperation_eq, accepted_op]

/-! ### Prompts -/

/-- A caller stream that stands is sounding, but for a STOPPING one (R125). -/
theorem sounding_iff {x : Slot} (hplays : x.state ≠ .idle) : x.state.sounding = true ↔ x.state ≠ .stopping := by
  cases hstate : x.state <;> simp_all [StreamState.sounding]

theorem freeSlot_eq_some {s : State} {i : Nat} (hi : 4 ≤ i) (hi' : i < 24) (hidle : (s.slotAt i).state = .idle)
    (hlower : ∀ j, 4 ≤ j → j < i → (s.slotAt j).state ≠ .idle) : s.freeSlot = some i := by
  cases hfound : s.freeSlot with
  | none => exact absurd hidle (freeSlot_none s hfound i hi hi')
  | some j =>
    obtain ⟨hj, _, hjidle, hjlower⟩ := freeSlot_some s j hfound
    rcases Nat.lt_trichotomy i j with hlt | rfl | hgt
    · exact absurd hidle (hjlower i hi hlt)
    · rfl
    · exact absurd hjidle (hlower j hj hgt)

end Sys2Proof.Machine

open Sys2Proof Sys2Proof.Machine

/-- Settles O33: the checks of each command in their order, and the one entry that changes. -/
theorem catalogueCommandsChangeOneEntry : Obligations.CatalogueCommandsChangeOneEntry := by
  intro st c cl start len loop s hs hc hcl hstart hlen hloop body fits bound e
  have hbound : s.bound c = true ↔ bound := bound_iff_clip s c
  have hfits : c < 128 ∧ cl ≤ 2 ∧ clipFieldsFit (classNumber cl) start len loop = true ↔ fits := by
    rw [clipFieldsFit_iff, classNumber_music]
    refine and_congr_right fun _ => and_congr_right fun _ => ⟨?_, ?_⟩
    · rintro ⟨halign, hleast, hpos, _, hroom, hloops⟩
      exact ⟨halign, hleast, hpos, hroom, hloops⟩
    · rintro ⟨halign, hleast, hpos, hroom, hloops⟩
      exact ⟨halign, hleast, hpos, by omega, hroom, hloops⟩
  obtain ⟨hout, hin⟩ := clipLoadCore_eq (s := s.accepted) (ps := body) (c := c) (cl := cl) (start := start) (len := len)
    (loop := loop)
    (by simp only [body, field1_toByte c _ hc]) (by simp only [body, field1_succ, field1_toByte cl _ hcl])
    (by simp only [body, field3_succ, field3_toByte start _ hstart])
    (by simp only [body, field3_succ, field3_toByte len _ hlen])
    (by simp only [body, field3_succ, field3_toByte loop _ hloop])
  refine ⟨fun hnot => ?_, fun hfit hbusy => ?_, fun hfit hactive huse hfree hunfenced => ?_, fun hrange => ?_, fun hlt => ?_⟩
  · exact heeded_refusal hs rfl (hout (mt hfits.1 hnot))
  · refine heeded_refusal hs rfl ((hin (hfits.2 hfit)).1 ?_)
    rcases hbusy with hstate | huse | hb | hfenced
    · exact .inl hstate
    · exact .inr (.inl huse)
    · exact .inr (.inr (.inl (hbound.2 hb)))
    · exact .inr (.inr (.inr hfenced))
  · have hcore := (hin (hfits.2 hfit)).2 (by
      rintro (hstate | hused | hb | hfenced)
      · exact hactive hstate
      · exact absurd huse (Nat.ne_of_gt hused)
      · exact hfree (hbound.1 hb)
      · exact absurd (hunfenced.symm.trans hfenced) Bool.false_ne_true)
    refine (heeded_answer hs rfl hcore).trans ?_
    rw [clipBody_eq, accepted_underOperation, underOperation_eq]
    rfl
  · exact heeded_refusal hs rfl (by simp [clipDeleteCore, field1_toByte c _ hc, hrange])
  · have hdelete (t : State) (a : Answer)
        (hcore : (if (s.clipAt c).state ≠ .active then (s.accepted, Answer.bare .state)
          else if s.bound c = true then (s.accepted, .bare .inUse)
          else if (s.clipAt c).use = 0 then
            (s.accepted.modClip c (fun _ => Clip.empty), .doneWith (put1 (clipStateCode .empty)))
          else (s.accepted.modClip c (fun x => { x with state := .retiring }), .doneWith (put1 (clipStateCode .retiring)))) =
            (t, a)) : exec (.clipDelete st [toByte c]) s = .next (t.owe st 0x41 a) := by
      refine heeded_answer hs rfl ?_
      unfold clipDeleteCore
      simp only [field1_toByte c _ hc]
      exact (if_neg (by omega)).trans hcore
    refine ⟨fun hstate => hdelete _ _ (if_pos hstate), fun hactive hb => hdelete _ _ ?_, fun hactive hfree huse => ?_,
      fun hactive hfree hused => ?_⟩
    · exact (if_neg (not_not.2 hactive)).trans (if_pos (hbound.2 hb))
    · exact hdelete _ _ ((if_neg (not_not.2 hactive)).trans ((if_neg (mt hbound.1 hfree)).trans (if_pos huse)))
    · exact hdelete _ _ ((if_neg (not_not.2 hactive)).trans ((if_neg (mt hbound.1 hfree)).trans
        (if_neg (Nat.ne_of_gt hused))))

/-- Settles O34: the checks in their order, and then the state of the programme's slot. -/
theorem programmeChangesWaitForTheSlot : Obligations.ProgrammeChangesWaitForTheSlot := by
  intro st k c s hs hk hc g idle run done changed
  have hrun {t : State} {a : Answer} (hcore : (if 3 < k then (s.accepted, Answer.bare .range)
      else if c = 255 then (programmeTaken k none s.accepted, .done)
      else if 127 < c then (s.accepted, .bare .range)
      else if (s.clipAt c).state ≠ .active then (s.accepted, .bare .state)
      else if (s.clipAt c).body.map (·.cls) ≠ some .music then (s.accepted, .bare .cls)
      else if (s.clipAt c).fenced = true then (s.accepted, .bare .inUse)
      else (programmeTaken k (some c) s.accepted, .done)) = (t, a)) : run = .next (t.owe st 0x42 a) := by
    refine heeded_answer hs rfl ?_
    unfold setProgrammeCore
    simp only [field1_succ, field1_toByte k _ hk, field1_toByte c _ hc]
    exact hcore
  refine ⟨fun hout => ?_, fun hlt hnone => ?_, fun hlt hclip => ?_⟩
  · rcases hout with hrange | ⟨hrange, hne⟩
    · exact hrun (if_pos hrange)
    · by_cases hk4 : 3 < k
      · exact hrun (if_pos hk4)
      · exact hrun ((if_neg hk4).trans ((if_neg hne).trans (if_pos hrange)))
  · have htaken : run = done (programmeTaken k none s.accepted) := hrun ((if_neg (by omega)).trans (if_pos hnone))
    refine ⟨fun hidle => ?_, fun hbusy => ?_⟩
    · exact htaken.trans (congrArg done ((if_pos hidle).trans (if_neg fun h => Bool.false_ne_true h.1)))
    · exact htaken.trans (congrArg done (if_neg hbusy))
  · have hchecks {t : State} {a : Answer} (hcore : (if (s.clipAt c).state ≠ .active then (s.accepted, Answer.bare .state)
        else if (s.clipAt c).body.map (·.cls) ≠ some .music then (s.accepted, .bare .cls)
        else if (s.clipAt c).fenced = true then (s.accepted, .bare .inUse)
        else (programmeTaken k (some c) s.accepted, .done)) = (t, a)) : run = .next (t.owe st 0x42 a) :=
      hrun ((if_neg (by omega)).trans ((if_neg (by omega)).trans ((if_neg (by omega)).trans hcore)))
    refine ⟨fun hstate => hchecks (if_pos hstate), fun b hactive hbody => ?_⟩
    have hcls (cls : ClipClass) : (s.clipAt c).body.map (·.cls) = some cls ↔ b.cls = cls := by simp [hbody]
    refine ⟨fun hother => hchecks ((if_neg (not_not.2 hactive)).trans (if_pos (mt (hcls _).1 hother))),
      fun hmusic hfenced => hchecks ((if_neg (not_not.2 hactive)).trans
        ((if_neg (not_not.2 ((hcls _).2 hmusic))).trans (if_pos hfenced))), fun hmusic hunfenced => ?_⟩
    have htaken : run = done (programmeTaken k (some c) s.accepted) :=
      hchecks ((if_neg (not_not.2 hactive)).trans ((if_neg (not_not.2 ((hcls _).2 hmusic))).trans
        (if_neg (by simp [hunfenced]))))
    refine ⟨fun hbusy hsame => ?_, fun hbusy hnew => ?_, fun hidle hsilent => ?_, fun hidle hheard => ?_⟩
    · exact htaken.trans (congrArg done ((if_neg hbusy).trans (if_pos hsame)))
    · exact htaken.trans (congrArg done ((if_neg hbusy).trans (if_neg hnew)))
    · exact htaken.trans (congrArg done ((if_pos hidle).trans (if_neg fun h => absurd hsilent (Nat.ne_of_gt h.2))))
    · have hset : ((changed (fun g => { g with clip := some c, pending := .empty })).progAt k).clip = some c := by
        rw [State.modProg_progAt, if_pos ⟨rfl, hlt⟩]
      refine htaken.trans (congrArg done ((if_pos hidle).trans ((if_pos ⟨rfl, hheard⟩).trans ?_)))
      exact (startProgramme_of_clip hset).trans
        (startStream_of_body (s := changed (fun g => { g with clip := some c, pending := .empty })) hbody ..)

/-- Settles O35: the checks in their order, the lowest free slot, and the stop of a sounding stream. -/
theorem callerPromptsStartAndStop : Obligations.CallerPromptsStartAndStop := by
  intro st p c g n h s hs hp hc hg hn hh body run refused
  have hrun {t : State} {a : Answer} (hcore :
      (if 15 < p ∨ 127 < c ∨ n = 0 ∨ 15 < n ∨ 1 < h then (s.accepted, Answer.bare .range)
      else if (s.posAt p).call = .free then (s.accepted, .bare .state)
      else if (s.clipAt c).state ≠ .active then (s.accepted, .bare .state)
      else if (s.clipAt c).body.map (·.cls) ≠ some .caller then (s.accepted, .bare .cls)
      else if (s.clipAt c).fenced = true then (s.accepted, .bare .inUse)
      else if (s.streamOf .caller p).isSome = true then (s.accepted, .bare .inUse)
      else
        match s.freeSlot with
        | none => (s.accepted, .bare .noRoom)
        | some i =>
          (startStream i .caller p c (clampTo Config.gainMost g) (some (n - 1)) (some (h == 1)) s.accepted,
            { status := .done, clamped := Config.gainMost < g, data := put1 i })) = (t, a)) :
      run = .next (t.owe st 0x43 a) := by
    refine heeded_answer hs rfl ?_
    unfold callerPromptCore
    simp only [body, field1_succ, field2_succ, field1_toByte p _ hp, field1_toByte c _ hc, field2_toByte g _ hg,
      field1_toByte n _ hn, field1_toByte h _ hh]
    exact hcore
  have hstop {t : State} {a : Answer} (hcore : (if 15 < p then (s.accepted, Answer.bare .range)
      else
        match s.streamOf .caller p with
        | some i =>
          if (s.slotAt i).state.sounding = true then (stopSlot i .stopped s.accepted, .bare .taken)
          else (s.accepted, .bare .state)
        | none => (s.accepted, .bare .state)) = (t, a)) : exec (.stopPrompt st [toByte p]) s = .next (t.owe st 0x44 a) := by
    refine heeded_answer hs rfl ?_
    unfold stopPromptCore
    simp only [field1_toByte p _ hp]
    exact hcore
  refine ⟨fun hrange => hrun (if_pos hrange), fun hp16 hc128 hn1 hn15 hh1 => ?_, fun hrange => hstop (if_pos hrange),
    fun hp16 => ?_⟩
  · have hin : ¬ (15 < p ∨ 127 < c ∨ n = 0 ∨ 15 < n ∨ 1 < h) := by omega
    refine ⟨fun hrefused => ?_, fun b hcall hactive hbody => ?_⟩
    · by_cases hfree : (s.posAt p).call = .free
      · exact hrun ((if_neg hin).trans (if_pos hfree))
      · exact hrun ((if_neg hin).trans ((if_neg hfree).trans (if_pos (hrefused.resolve_left hfree))))
    have hcls (cls : ClipClass) : (s.clipAt c).body.map (·.cls) = some cls ↔ b.cls = cls := by simp [hbody]
    have hactive' := not_not.2 hactive
    refine ⟨fun hother => ?_, fun hcaller hfenced => ?_, fun hcaller hunfenced => ?_⟩
    · exact hrun ((if_neg hin).trans ((if_neg hcall).trans ((if_neg hactive').trans (if_pos (mt (hcls _).1 hother)))))
    · exact hrun ((if_neg hin).trans ((if_neg hcall).trans ((if_neg hactive').trans
        ((if_neg (not_not.2 ((hcls _).2 hcaller))).trans (if_pos hfenced)))))
    have hpast {t : State} {a : Answer} (hcore : (if (s.streamOf .caller p).isSome = true then (s.accepted, Answer.bare .inUse)
        else
          match s.freeSlot with
          | none => (s.accepted, .bare .noRoom)
          | some i =>
            (startStream i .caller p c (clampTo Config.gainMost g) (some (n - 1)) (some (h == 1)) s.accepted,
              { status := .done, clamped := Config.gainMost < g, data := put1 i })) = (t, a)) :
        run = .next (t.owe st 0x43 a) :=
      hrun ((if_neg hin).trans ((if_neg hcall).trans ((if_neg hactive').trans
        ((if_neg (not_not.2 ((hcls _).2 hcaller))).trans ((if_neg (by simp [hunfenced])).trans hcore)))))
    refine ⟨fun hstream => hpast (if_pos (Option.isSome_iff_ne_none.2 hstream)), fun hnone hfull => ?_,
      fun i hnone hi hi' hidle hlower => ?_⟩
    · refine hpast ((if_neg (by simp [hnone])).trans ?_)
      rw [(freeSlot_none_iff s).2 hfull]
    · refine (hpast ((if_neg (by simp [hnone])).trans (by rw [freeSlot_eq_some hi hi' hidle hlower]))).trans ?_
      rw [startStream_of_body (s := s.accepted) hbody, clampTo_eq_min]
      rfl
  · refine ⟨fun hnone => hstop ((if_neg (by omega)).trans (by rw [hnone])), fun i hi => ?_⟩
    obtain ⟨_, _, hplays, _⟩ := streamOf_some s .caller p i hi
    refine ⟨fun hstopping => hstop ((if_neg (by omega)).trans ?_), fun hsounds => ?_⟩
    · rw [hi]
      exact if_neg (by rw [hstopping]; exact Bool.false_ne_true)
    · have hsounding : (s.slotAt i).state.sounding = true := (sounding_iff hplays).2 hsounds
      refine (hstop (t := stopSlot i .stopped s.accepted) (a := .bare .taken) ((if_neg (by omega)).trans ?_)).trans ?_
      · rw [hi]
        exact if_pos hsounding
      have hslot : s.accepted.modSlot i (Slot.stop .stopped) = s.accepted.modSlot i (fun x =>
          { x with state := .stopping, dir := some .falling, cause := some .stopped }) :=
        s.accepted.modSlot_congr (Slot.stop_sounding .stopped _ hsounding)
      exact congrArg (fun t : State => Host.Outcome.next (t.owe st 0x44 (.bare .taken))) hslot

end

section
/-! SUPPORT. The arrival of fetched bytes by what it makes of the store, of the slot and of its programme, and the statement on
it (R119 to R121, R124, R141). -/

namespace Sys2Proof.Machine

/-! ### The store -/

theorem Store.endFetch_eq (u : Store) : u.endFetch = { u with
    fetch := none
    activity := if u.phase = some .suspending ∨ u.phase = some .suspended then .eraseSuspended else .idle } := by
  rw [← Store.released_eq]
  rfl

/-- A suspend that is answered leaves the erase paused (R144). -/
theorem Store.suspendAnswered_released (u : Store) : u.suspendAnswered.released = u.released := by
  rw [Store.released_eq, Store.released_eq, Store.suspendAnswered_phase]
  by_cases hsuspending : u.phase = some .suspending
  · simp [hsuspending]
  · rw [if_neg hsuspending]

theorem Store.fetched_eq (f : Fetch) (u : Store) : u.fetched f = { u with
    fetch := none
    activity := if u.phase = some .suspending ∨ u.phase = some .suspended then .eraseSuspended else .idle
    op := u.op.map (fun o => if o.phase = .suspending then { o with phase := .suspended } else o)
    request := some (.read f.addr f.count) } := by
  rw [← Store.released_eq, ← Store.suspendAnswered_released]
  rfl

theorem fetchArrival_live {bytes : List Byte} {f : Fetch} {s : State} (hf : s.store.fetch = some f)
    (hlen : bytes.length = f.count) (hlive : f.live = true) :
    fetchArrival bytes s = arrive f.slot bytes (s.modStore (Store.fetched f)) := by
  unfold fetchArrival
  rw [hf]
  exact (if_pos hlen).trans (if_pos hlive)

theorem fetchArrival_dead {bytes : List Byte} {f : Fetch} {s : State} (hf : s.store.fetch = some f)
    (hlen : bytes.length = f.count) (hdead : f.live = false) : fetchArrival bytes s = s.modStore (Store.fetched f) := by
  unfold fetchArrival
  rw [hf]
  exact (if_pos hlen).trans (if_neg (by simp [hdead]))

/-! ### The slot -/

/-- The slot with the bytes behind its buffer, and the underrun episode at its end (R119, R124). -/
def Slot.filled (bytes : List Byte) (x : Slot) : Slot :=
  { x with buffer := x.buffer ++ bytes.map lawDecode, addr := x.addr + bytes.length, left := x.left - bytes.length,
           underrun := false }

/-- A PLAYING slot with nothing left to fetch is ENDING (R120). -/
def Slot.drained (x : Slot) : Slot := if x.left = 0 ∧ x.state = .playing then { x with state := .ending } else x

/-- The end of a pass and then the end of priming (R120, R121). -/
def Slot.settled (x : Slot) : Slot := x.drained.primed

theorem Slot.settled_eq (y : Slot) : y.settled =
    if y.state = .playing ∧ y.left = 0 then { y with state := .ending }
    else if y.state = .priming ∧ (128 ≤ y.buffer.length ∨ y.left = 0) then
      { y with state := if y.left = 0 then .ending else .playing, begun := true }
    else y := by
  unfold Slot.settled Slot.drained
  by_cases hlast : y.left = 0 ∧ y.state = .playing
  · rw [if_pos hlast, if_pos hlast.symm]
    exact if_neg fun h => nomatch h.1
  · rw [if_neg hlast, if_neg (mt And.symm hlast)]
    rfl

/-- The pass end of a slot by its kind: a repeat, or what the programme has pending, and nothing for a whisper (R120). -/
def passTurn (i : Nat) (s : State) : State :=
  match (s.slotAt i).kind with
  | some .programme => programmePassEnd i s
  | some .caller =>
    match (s.slotAt i).repeats.getD 0, (s.slotAt i).clip.bind (fun c => (s.clipAt c).body) with
    | n + 1, some b => s.modSlot i (fun x => Slot.goOn b.start b.length { x with repeats := some n })
    | _, _ => s
  | _ => s

theorem passEnd_eq (i : Nat) (s : State) : passEnd i s = (passTurn i s).modSlot i Slot.drained := rfl

theorem filled_slotAt {i : Nat} (hi : i < 24) (bytes : List Byte) (s : State) :
    (s.modSlot i (Slot.filled bytes)).slotAt i = (s.slotAt i).filled bytes := by
  rw [State.modSlot_slotAt, if_pos ⟨rfl, hi⟩]

/-- Bytes that are not the last of a pass. -/
theorem arrive_more {i : Nat} (hi : i < 24) {bytes : List Byte} {s : State} (hleft : bytes.length < (s.slotAt i).left) :
    arrive i bytes s = s.modSlot i (fun x => (x.filled bytes).settled) := by
  have hmore : ¬ ((s.slotAt i).filled bytes).left = 0 := by
    show ¬ (s.slotAt i).left - bytes.length = 0
    omega
  have hgoes : ¬ ((s.modSlot i (Slot.filled bytes)).slotAt i).left = 0 := by rwa [filled_slotAt hi]
  have harrive : arrive i bytes s = (s.modSlot i (Slot.filled bytes)).modSlot i Slot.primed :=
    congrArg (fun t : State => t.modSlot i Slot.primed) (if_neg hgoes)
  rw [harrive, State.modSlot_modSlot]
  refine s.modSlot_congr ?_
  unfold Slot.settled Slot.drained
  rw [if_neg fun h => hmore h.1]

/-- The last bytes of a pass. -/
theorem arrive_last {i : Nat} (hi : i < 24) {bytes : List Byte} {s : State} (hleft : (s.slotAt i).left ≤ bytes.length) :
    arrive i bytes s = (passTurn i (s.modSlot i (Slot.filled bytes))).modSlot i Slot.settled := by
  have hlast : ((s.modSlot i (Slot.filled bytes)).slotAt i).left = 0 := by
    rw [filled_slotAt hi]
    exact Nat.sub_eq_zero_of_le hleft
  have harrive : arrive i bytes s = (passEnd i (s.modSlot i (Slot.filled bytes))).modSlot i Slot.primed :=
    congrArg (fun t : State => t.modSlot i Slot.primed) (if_pos hlast)
  rw [harrive, passEnd_eq, State.modSlot_modSlot]
  rfl

/-- A pass end that leaves the slot as it is filled. -/
theorem arrive_stays {i : Nat} (hi : i < 24) {bytes : List Byte} {s : State} (hleft : (s.slotAt i).left ≤ bytes.length)
    (hturn : passTurn i (s.modSlot i (Slot.filled bytes)) = s.modSlot i (Slot.filled bytes)) :
    arrive i bytes s = s.modSlot i (fun x => (x.filled bytes).settled) := by
  rw [arrive_last hi hleft, hturn, State.modSlot_modSlot]

/-- A pass end that sends the slot on. -/
theorem arrive_turns {i : Nat} (hi : i < 24) {bytes : List Byte} {s : State} (hleft : (s.slotAt i).left ≤ bytes.length)
    {f : Slot → Slot} (hturn : passTurn i (s.modSlot i (Slot.filled bytes)) = (s.modSlot i (Slot.filled bytes)).modSlot i f) :
    arrive i bytes s = s.modSlot i (fun x => (f (x.filled bytes)).settled) := by
  rw [arrive_last hi hleft, hturn, State.modSlot_modSlot, State.modSlot_modSlot]

theorem passTurn_whisper {i : Nat} {s : State} (h : (s.slotAt i).kind = some .whisper) : passTurn i s = s := by
  unfold passTurn
  rw [h]

theorem passTurn_caller_last {i : Nat} {s : State} (h : (s.slotAt i).kind = some .caller)
    (hlast : (s.slotAt i).repeats = some 0) :
    passTurn i s = s := by
  unfold passTurn
  rw [h, hlast]
  rfl

theorem passTurn_caller_again {i n c : Nat} {b : ClipBody} {s : State} (h : (s.slotAt i).kind = some .caller)
    (hmore : (s.slotAt i).repeats = some (n + 1)) (hclip : (s.slotAt i).clip = some c) (hbody : (s.clipAt c).body = some b) :
    passTurn i s = s.modSlot i (fun x => Slot.goOn b.start b.length { x with repeats := some n }) := by
  have hfound : (s.slotAt i).clip.bind (fun c => (s.clipAt c).body) = some b := by rw [hclip]; exact hbody
  unfold passTurn
  rw [h, hmore, hfound]
  rfl

theorem passTurn_programme {i : Nat} {s : State} (h : (s.slotAt i).kind = some .programme) :
    passTurn i s = programmePassEnd i s := by
  unfold passTurn
  rw [h]

/-! ### The pass end of a programme -/

theorem programmePassEnd_loops {i c : Nat} {b : ClipBody} {s : State} (hpending : (s.progAt i).pending = .empty)
    (hclip : (s.slotAt i).clip = some c) (hbody : (s.clipAt c).body = some b) :
    programmePassEnd i s = s.modSlot i (Slot.goOn (b.start + b.loop.getD 0) (b.length - b.loop.getD 0)) := by
  have hfound : (s.slotAt i).clip.bind (fun c => (s.clipAt c).body) = some b := by rw [hclip]; exact hbody
  unfold programmePassEnd
  simp only [hpending, hfound]

/-- A rising slot of a programme that loses its clip turns to falling (R120). -/
def Slot.turned (x : Slot) : Slot :=
  if x.state = .stopping ∧ x.dir = some .rising then { x with dir := some .falling, cause := some .noListeners } else x

/-- The programme's pending change is made, with its notice (R135). -/
def State.programmeSet (s : State) (k : Nat) (c : Option Nat) : State :=
  (s.modProg k (fun g => { g with clip := c, pending := .empty })).post .maint .programmeChanged none (some k) none c

theorem programmePassEnd_loses {i : Nat} {s : State} (hpending : (s.progAt i).pending = .none) :
    programmePassEnd i s = (s.modSlot i Slot.turned).programmeSet i none := by
  have happly : applyPending i (s.modSlot i Slot.turned) = (s.modSlot i Slot.turned).programmeSet i none := by
    unfold applyPending
    rw [State.modSlot_progAt, hpending]
    rfl
  rw [← happly]
  unfold programmePassEnd
  simp only [hpending]
  rfl

theorem programmePassEnd_changes {i c d : Nat} {b : ClipBody} {s : State} (hpending : (s.progAt i).pending = .clip d)
    (hclip : (s.slotAt i).clip = some c) (hne : c ≠ d) (hbody : (s.clipAt d).body = some b) :
    programmePassEnd i s = ((useUp d (useDown c s)).modSlot i (fun x =>
      { x with clip := some d, addr := b.start, left := b.length })).programmeSet i (some d) := by
  have hbody' : ((useUp d (useDown c s)).clipAt d).body = some b := by
    have hstands : (useDown c s).clipAt d = s.clipAt d := by
      show tget (useDown c s).clip d = tget s.clip d
      rw [useDown_clip, tget_tmod, if_neg fun h => hne h.1]
    unfold useUp
    rw [State.modClip_clipAt]
    split <;> (rw [hstands]; exact hbody)
  have hpending' : (((useUp d (useDown c s)).modSlot i (fun x =>
      { x with clip := some d, addr := b.start, left := b.length })).progAt i).pending = .clip d := by
    rw [State.modSlot_progAt, show (useUp d (useDown c s)).progAt i = s.progAt i from
      congrArg (fun v => tget v i) (by simp : (useUp d (useDown c s)).prog = s.prog), hpending]
  have happly : applyPending i ((useUp d (useDown c s)).modSlot i (fun x =>
      { x with clip := some d, addr := b.start, left := b.length })) =
      ((useUp d (useDown c s)).modSlot i (fun x =>
        { x with clip := some d, addr := b.start, left := b.length })).programmeSet i (some d) := by
    unfold applyPending
    rw [hpending']
    rfl
  rw [← happly]
  unfold programmePassEnd
  simp only [hpending, hclip, hbody', Option.map_some, Option.getD_some]

/-! ### A slot changes beside the catalogue and the programmes -/

theorem modSlot_post (i : Nat) (f : Slot → Slot) (s : State) (r : Role) (k : NoticeKind) (p u : Option Nat) (c : Option Cause)
    (v : Option Nat) : (s.post r k p u c v).modSlot i f = (s.modSlot i f).post r k p u c v := by
  cases r <;> rfl

theorem modSlot_programmeSet (i : Nat) (f : Slot → Slot) (s : State) (k : Nat) (c : Option Nat) :
    (s.programmeSet k c).modSlot i f = (s.modSlot i f).programmeSet k c := modSlot_post ..

theorem useDown_modSlot (c i : Nat) (f : Slot → Slot) (s : State) : useDown c (s.modSlot i f) = (useDown c s).modSlot i f := by
  rcases useDown_cases c s with ⟨hretiring, hlast, heq⟩ | ⟨hmore, heq⟩
  · rw [heq, modSlot_post]
    exact if_pos ⟨hretiring, hlast⟩
  · rw [heq]
    exact if_neg hmore

end Sys2Proof.Machine

open Sys2Proof Sys2Proof.Machine

/-- Settles O39: the store's part of an arrival, and the slot's by what is left of the pass and by its kind. -/
theorem arrivalsFillTheSlot : Obligations.ArrivalsFillTheSlot := by
  intro bytes f s hf hlen u paused closed answered base i x filled settled run
  have hbase : s.modStore (Store.fetched f) = base :=
    congrArg (fun v : Store => { s with store := v }) (Store.fetched_eq f s.store)
  have hsettled (y : Slot) : y.settled = settled y := y.settled_eq
  refine ⟨?_, fun extra => ?_, fun hdead => ?_, fun hlive hi => ?_⟩
  · show Host.Outcome.next (fetchTimeout s) = _
    unfold fetchTimeout
    rw [hf]
    exact congrArg (fun v : Store => Host.Outcome.next { s with store := v }) s.store.endFetch_eq
  · show Host.Outcome.next (fetchArrival (extra :: bytes) s) = _
    unfold fetchArrival
    rw [hf]
    refine congrArg Host.Outcome.next (if_neg ?_)
    rw [List.length_cons]
    omega
  · exact congrArg Host.Outcome.next ((fetchArrival_dead hf hlen hdead).trans hbase)
  have hrun {t : State} (ht : arrive i bytes base = t) : run = .next t :=
    congrArg Host.Outcome.next ((fetchArrival_live hf hlen hlive).trans ((congrArg (arrive i bytes) hbase).trans ht))
  have hset {g : Slot → Slot} {y : Slot} (hg : g x = y) :
      base.modSlot i (fun z => (g z).settled) = base.modSlot i (fun _ => settled y) :=
    base.modSlot_congr ((congrArg Slot.settled hg).trans (hsettled y))
  have hat : (base.modSlot i (Slot.filled bytes)).slotAt i = filled := filled_slotAt hi bytes base
  refine ⟨fun hmore => hrun ((arrive_more (s := base) hi hmore).trans (hset (g := Slot.filled bytes) rfl)), fun hlast => ?_⟩
  have hkind (k : StreamKind) (hx : x.kind = some k) : ((base.modSlot i (Slot.filled bytes)).slotAt i).kind = some k := by
    rw [hat]
    exact hx
  have hclip {c : Nat} (hx : x.clip = some c) : ((base.modSlot i (Slot.filled bytes)).slotAt i).clip = some c := by
    rw [hat]
    exact hx
  have hrepeats {n : Nat} (hx : x.repeats = some n) : ((base.modSlot i (Slot.filled bytes)).slotAt i).repeats = some n := by
    rw [hat]
    exact hx
  refine ⟨fun hwhisper => ?_, fun hcaller hdone => ?_, fun n c b hcaller hagain hplays hbody => ?_,
    fun c b hprogramme hpending hplays hbody => ?_, fun hprogramme hpending _ => ?_,
    fun c d b hprogramme hpending _ hplays _ _ hne hbody => ?_⟩
  · have hturn := passTurn_whisper (hkind _ hwhisper)
    exact hrun ((arrive_stays (s := base) hi hlast hturn).trans (hset (g := Slot.filled bytes) rfl))
  · have hturn := passTurn_caller_last (hkind _ hcaller) (hrepeats hdone)
    exact hrun ((arrive_stays (s := base) hi hlast hturn).trans (hset (g := Slot.filled bytes) rfl))
  · have hturn := passTurn_caller_again (hkind _ hcaller) (hrepeats hagain) (hclip hplays) hbody
    exact hrun ((arrive_turns (s := base) hi hlast hturn).trans
      (hset (g := fun z => Slot.goOn b.start b.length { z.filled bytes with repeats := some n }) rfl))
  · have hturn := (passTurn_programme (hkind _ hprogramme)).trans (programmePassEnd_loops hpending (hclip hplays) hbody)
    exact hrun ((arrive_turns (s := base) hi hlast hturn).trans
      (hset (g := fun z => (z.filled bytes).goOn (b.start + b.loop.getD 0) (b.length - b.loop.getD 0)) rfl))
  · intro turned
    have hturn := (passTurn_programme (hkind _ hprogramme)).trans (programmePassEnd_loses (i := i) hpending)
    refine hrun ((arrive_last (s := base) hi hlast).trans ?_)
    rw [hturn, modSlot_programmeSet, State.modSlot_modSlot, State.modSlot_modSlot]
    exact congrArg (fun t : State => t.programmeSet i none) (hset (g := fun z => (z.filled bytes).turned) rfl)
  · intro counted
    have hcounted : useDown c base = counted := rfl
    have hturn := (passTurn_programme (hkind _ hprogramme)).trans
      (programmePassEnd_changes hpending (hclip hplays) hne hbody)
    refine hrun ((arrive_last (s := base) hi hlast).trans ?_)
    rw [hturn, modSlot_programmeSet, useDown_modSlot, hcounted]
    refine congrArg (fun t : State => t.programmeSet i (some d)) ?_
    have hcountedAt : (useUp d (useDown c base)).slotAt i = base.slotAt i := slotAt_congr (by simp) i
    have hmoves : useUp d (counted.modSlot i (Slot.filled bytes)) = (useUp d counted).modSlot i (Slot.filled bytes) := rfl
    rw [hmoves, State.modSlot_modSlot, State.modSlot_modSlot]
    refine ((useUp d counted).modSlot_congr (g := fun _ =>
      settled { filled with clip := some d, addr := b.start, left := b.length }) ?_).trans rfl
    rw [← hcounted, hcountedAt]
    exact hsettled _

end

section
/-! SUPPORT. The slots in a frame: what the turn of another slot does to a slot, and the sample of a slot that does not reach
IDLE in its own turn; the statement on the samples of a frame (R122, R124). -/

namespace Sys2Proof.Machine

/-! ### A slot in the turns of the others -/

/-- The slot stands, but for a stream that may start in it and that has yielded nothing (R118, R130). -/
def Slot.Bystands (x y : Slot) : Prop := y = x ∨ (x.state = .idle ∧ y.state = .priming ∧ y.out = 0)

theorem Slot.Bystands.trans {x y z : Slot} (h : x.Bystands y) (h' : y.Bystands z) : x.Bystands z := by
  rcases h' with heq | ⟨hidle, hstarted⟩
  · rwa [heq]
  · rcases h with heq | ⟨_, hpriming, _⟩
    · exact .inr ⟨heq ▸ hidle, hstarted⟩
    · rw [hpriming] at hidle
      cases hidle

/-- A slot in use stands. -/
theorem Slot.Bystands.busy {x y : Slot} (h : x.Bystands y) (hbusy : x.state ≠ .idle) : y = x :=
  h.resolve_right fun hstarts => hbusy hstarts.1

/-- A slot that has yielded nothing goes on having yielded nothing. -/
theorem Slot.Bystands.out {x y : Slot} (h : x.Bystands y) (hout : x.out = 0) : y.out = 0 := by
  rcases h with heq | ⟨_, _, hzero⟩
  · rwa [heq]
  · exact hzero

theorem Slot.Bystands.of_slot {s t : State} (h : t.slot = s.slot) (j : Nat) : (s.slotAt j).Bystands (t.slotAt j) :=
  .inl (slotAt_congr h j)

theorem startHead_bystands (p i : Nat) (l : List WhisperItem) (s : State) (hidle : (s.slotAt i).state = .idle) (j : Nat) :
    (s.slotAt j).Bystands ((startHead p i l s).2.slotAt j) := by
  rcases startHead_cases p i l s with ⟨_, c, b, g, q, hslot, _⟩ | ⟨_, hslot, _⟩
  · have hslotAt : (startHead p i l s).2.slotAt j = if i = j ∧ i < 24
        then Slot.started .whisper p c b g none none ((s.slotAt i).carried .whisper) else s.slotAt j :=
      (congrArg (fun v => tget v j) hslot).trans (tget_tmod ..)
    rw [hslotAt]
    split
    next hij => exact .inr ⟨hij.1 ▸ hidle, rfl, rfl⟩
    next => exact .inl rfl
  · exact .of_slot hslot j

theorem serveWaiting_bystands (i : Nat) (l : List Nat) (s : State) (hidle : (s.slotAt i).state = .idle) (j : Nat) :
    (s.slotAt j).Bystands ((serveWaiting i l s).slotAt j) := by
  induction l generalizing s with
  | nil => exact .of_slot rfl j
  | cons p ps ih =>
    have hhead := startHead_bystands p i (s.queueAt p) (s.setWait ps) hidle j
    unfold serveWaiting
    split
    next t heq =>
      rw [heq] at hhead
      exact hhead
    next t heq =>
      rw [heq] at hhead
      exact hhead.trans (ih t (by rw [slotAt_congr (startHead_false heq).1]; exact hidle))

theorem headReady_bystands (p : Nat) (s : State) (j : Nat) : (s.slotAt j).Bystands ((headReady p s).slotAt j) := by
  unfold headReady
  split
  · exact .inl rfl
  · split
    · exact .of_slot rfl j
    next i hfree =>
      obtain ⟨_, _, hidle, _⟩ := freeSlot_some s i hfree
      have hhead := startHead_bystands p i (s.queueAt p) s hidle j
      split
      next t heq =>
        rw [heq] at hhead
        exact hhead
      next t heq =>
        rw [heq] at hhead
        exact hhead.trans (serveWaiting_bystands i _ t (by rw [slotAt_congr (startHead_false heq).1]; exact hidle) j)

/-- A programme starts in its own slot. -/
theorem settleProgramme_slotAt (k : Nat) (s : State) {j : Nat} (hne : j ≠ k) :
    (settleProgramme k s).slotAt j = s.slotAt j := by
  have hpending : (applyPending k s).slotAt j = s.slotAt j := slotAt_congr (by simp) j
  unfold settleProgramme startProgramme
  dsimp only
  split
  · split
    · exact hpending
    · rw [startStream_slotAt _ _ _ _ _ _ _ _ hne, hpending]
  · exact hpending

theorem reachIdle_bystands (i : Nat) (c : Cause) (s : State) (hi : i < 24) {j : Nat} (hne : j ≠ i) :
    (s.slotAt j).Bystands ((reachIdle i c s).slotAt j) := by
  have hended : (slotEnded i c s).slotAt j = s.slotAt j := by
    rw [slotEnded_slotAt, if_neg fun hij => hne hij.1.symm]
  have hserve := serveWaiting_bystands i (slotEnded i c s).waitList _ (slotEnded_idle i c s hi) j
  rw [reachIdle_eq, ← hended]
  split
  · exact hserve.trans (headReady_bystands _ _ j)
  · exact hserve
  · exact .inl (settleProgramme_slotAt i _ hne)
  · exact .inl rfl

/-- The turn of another slot. -/
theorem slotFrame_bystands (i : Nat) (s : State) (hi : i < 24) {j : Nat} (hne : j ≠ i) :
    (s.slotAt j).Bystands ((slotFrame i s).slotAt j) := by
  have hother (f : Slot → Slot) (t : State) : (t.modSlot i f).slotAt j = t.slotAt j := by
    rw [State.modSlot_slotAt, if_neg fun hij => hne hij.1.symm]
  have hsame (f : Slot → Slot) : (s.slotAt j).Bystands ((s.modSlot i f).slotAt j) := .inl (hother f s)
  have hends (f : Slot → Slot) (c : Cause) : (s.slotAt j).Bystands ((reachIdle i c (s.modSlot i f)).slotAt j) :=
    (hsame f).trans (reachIdle_bystands i c _ hi hne)
  unfold slotFrame
  dsimp only
  split
  case h_1 | h_2 => exact hsame _
  case h_3 =>
    split
    · split
      · exact hsame _
      · exact (hsame (fun x => { x with out := 0, underrun := true })).trans (.of_slot (by simp) j)
    · exact hsame _
  case h_4 =>
    split
    · exact hends ..
    · exact hsame _
  case h_5 =>
    unfold stoppingFrame
    dsimp only
    split
    · exact hends ..
    · split
      · exact (hsame _).trans (.inl (hother _ _))
      · exact hsame _

/-! ### The slot's own turn -/

theorem slotFrame_rests {i : Nat} {s : State} (h : (s.slotAt i).state = .idle ∨ (s.slotAt i).state = .priming) :
    slotFrame i s = s.modSlot i (fun x => { x with out := 0 }) := by
  rcases h with h | h
  · exact slotFrame_idle i s h
  · unfold slotFrame
    simp only [h]

theorem slotFrame_plays {i : Nat} {s : State} {y : Int} {ys : List Int} (h : (s.slotAt i).state = .playing)
    (hbuffer : (s.slotAt i).buffer = y :: ys) : slotFrame i s = s.modSlot i (Slot.taken y) := by
  unfold slotFrame
  simp only [h, hbuffer]

theorem slotFrame_underruns {i : Nat} {s : State} (h : (s.slotAt i).state = .playing) (hempty : (s.slotAt i).buffer = []) :
    slotFrame i s = if (s.slotAt i).underrun then s.modSlot i (fun x => { x with out := 0, underrun := true })
      else postUnderrun i (s.slotAt i) (s.modSlot i (fun x => { x with out := 0, underrun := true })) := by
  unfold slotFrame
  simp only [h, hempty]

theorem slotFrame_drains {i : Nat} {s : State} (h : (s.slotAt i).state = .ending) (hmore : 1 < (s.slotAt i).buffer.length) :
    slotFrame i s = s.modSlot i (Slot.taken ((s.slotAt i).buffer.headD 0)) := by
  unfold slotFrame
  simp only [h]
  exact if_neg (by omega)

/-- A STOPPING slot with the next factor of its ramp, and the sample at that factor. -/
def Slot.faded (x : Slot) : Slot :=
  { (if x.begun then x.taken (roundDiv (x.buffer.headD 0 * x.stepRamp) 40) else { x with out := 0 }) with ramp := x.stepRamp }

/-- A STOPPING slot after a turn in which it does not end; at the top of a rise it is PLAYING again. -/
def Slot.fades (x : Slot) : Slot :=
  if x.dir = some .rising ∧ x.stepRamp = 40 then { x.faded with state := .playing, dir := none, cause := none } else x.faded

theorem Slot.faded_state (x : Slot) : x.faded.state = x.state := by
  unfold Slot.faded Slot.taken
  split <;> rfl

theorem Slot.fades_busy {x : Slot} (h : x.state ≠ .idle) : x.fades.state ≠ .idle := by
  unfold Slot.fades
  split
  · exact nofun
  · rwa [Slot.faded_state]

theorem Slot.stepRamp_falling {x : Slot} (h : x.dir = some .falling) : x.stepRamp = x.ramp - 1 := by
  unfold Slot.stepRamp
  rw [h]

theorem Slot.stepRamp_rising {x : Slot} (h : x.dir = some .rising) (hramp : x.ramp < 40) : x.stepRamp = x.ramp + 1 := by
  unfold Slot.stepRamp
  rw [h]
  exact if_pos hramp

/-- The next factor of a fall that has begun. -/
theorem Slot.fades_falling {x : Slot} (h : x.dir = some .falling) (hbegun : x.begun = true) : x.fades =
    { x with ramp := x.ramp - 1, buffer := x.buffer.tail, out := roundDiv (x.buffer.headD 0 * (x.ramp - 1 : Nat)) 40 } := by
  rw [Slot.fades, if_neg (by simp [h]), Slot.faded, if_pos hbegun, Slot.stepRamp_falling h]
  rfl

/-- A slot that falls before it has begun is silent. -/
theorem Slot.fades_unbegun {x : Slot} (h : x.dir = some .falling) (hbegun : x.begun = false) :
    x.fades = { x with ramp := x.ramp - 1, out := 0 } := by
  rw [Slot.fades, if_neg (by simp [h]), Slot.faded, if_neg (by simp [hbegun]), Slot.stepRamp_falling h]

/-- The next factor of a rise. -/
theorem Slot.fades_rising {x : Slot} (h : x.dir = some .rising) (hbegun : x.begun = true) (hramp : x.ramp < 40) : x.fades =
    { x with ramp := x.ramp + 1, buffer := x.buffer.tail, out := roundDiv (x.buffer.headD 0 * (x.ramp + 1 : Nat)) 40,
             state := if x.ramp + 1 = 40 then .playing else x.state, dir := if x.ramp + 1 = 40 then none else x.dir,
             cause := if x.ramp + 1 = 40 then none else x.cause } := by
  have hfaded : x.faded = { x with ramp := x.ramp + 1, buffer := x.buffer.tail,
                                   out := roundDiv (x.buffer.headD 0 * (x.ramp + 1 : Nat)) 40 } := by
    rw [Slot.faded, if_pos hbegun, Slot.stepRamp_rising h hramp]
    rfl
  rw [Slot.fades, hfaded, Slot.stepRamp_rising h hramp]
  by_cases htop : x.ramp + 1 = 40
  · rw [if_pos ⟨h, htop⟩, if_pos htop, if_pos htop, if_pos htop]
  · rw [if_neg fun hrises => htop hrises.2, if_neg htop, if_neg htop, if_neg htop]

theorem slotFrame_fades {i : Nat} {s : State} (h : (s.slotAt i).state = .stopping)
    (hmore : (s.slotAt i).begun = false ∨ (s.slotAt i).buffer.length ≠ 1 ∨ 0 < (s.slotAt i).left)
    (hramp : (s.slotAt i).dir = some .rising ∨ (s.slotAt i).stepRamp ≠ 0) :
    slotFrame i s = s.modSlot i Slot.fades := by
  have hgoes : ¬ (((s.slotAt i).begun = true ∧ (s.slotAt i).buffer.length = 1 ∧ (s.slotAt i).left = 0) ∨
      ((s.slotAt i).dir ≠ some .rising ∧ (s.slotAt i).stepRamp = 0)) := by
    rintro (⟨hbegun, hone, hnone⟩ | ⟨hfalls, hzero⟩)
    · rw [hbegun] at hmore
      simp at hmore
      omega
    · exact hramp.elim hfalls (absurd hzero)
  have hstep : s.modSlot i (fun x => { (if x.begun then x.taken (if (s.slotAt i).begun then
      roundDiv ((s.slotAt i).buffer.headD 0 * (s.slotAt i).stepRamp) 40 else 0) else { x with out := 0 }) with
      ramp := (s.slotAt i).stepRamp }) = s.modSlot i Slot.faded := by
    refine s.modSlot_congr ?_
    unfold Slot.faded
    cases (s.slotAt i).begun <;> rfl
  have hstopping : slotFrame i s = stoppingFrame i s := by
    unfold slotFrame
    simp only [h]
  have hturn : stoppingFrame i s = if (s.slotAt i).dir = some .rising ∧ (s.slotAt i).stepRamp = 40 then
      (s.modSlot i Slot.faded).modSlot i (fun x => { x with state := .playing, dir := none, cause := none })
      else s.modSlot i Slot.faded := by
    rw [← hstep]
    exact if_neg hgoes
  rw [hstopping, hturn]
  split
  next htop =>
    rw [State.modSlot_modSlot]
    exact s.modSlot_congr (if_pos htop).symm
  next hmid => exact s.modSlot_congr (if_neg hmid).symm

theorem slotFrame_underruns_slotAt {i : Nat} {s : State} (h : (s.slotAt i).state = .playing)
    (hempty : (s.slotAt i).buffer = []) :
    (slotFrame i s).slotAt i = (s.modSlot i (fun x => { x with out := 0, underrun := true })).slotAt i := by
  have hpost (x : Slot) (t : State) : (postUnderrun i x t).slot = t.slot := by simp
  rw [slotFrame_underruns h hempty]
  split
  · rfl
  · exact slotAt_congr (hpost ..) i

/-! ### The turns of all slots -/

theorem foldl_slotFrame_bystands {i : Nat} (l : List Nat) (hl : ∀ j ∈ l, j < 24 ∧ i ≠ j) (s : State) :
    (s.slotAt i).Bystands ((l.foldl (fun v j => slotFrame j v) s).slotAt i) := by
  induction l generalizing s with
  | nil => exact .inl rfl
  | cons j l ih =>
    obtain ⟨hj, hne⟩ := hl j (by simp)
    exact (slotFrame_bystands j s hj hne).trans (ih (fun r hr => hl r (by simp [hr])) _)

/-- The slots before `i`, the turn of slot `i`, and the slots behind it. -/
theorem forSlots_turn {i : Nat} (hi : i < 24) (s : State) : ∃ v, (s.slotAt i).Bystands (v.slotAt i) ∧
    ((slotFrame i v).slotAt i).Bystands ((forSlots slotFrame s).slotAt i) := by
  obtain ⟨before, behind, hrange⟩ := List.append_of_mem (List.mem_range.2 hi)
  have hnodup : (before ++ i :: behind).Nodup := hrange ▸ List.nodup_range
  have hlt {j : Nat} (hj : j ∈ before ++ i :: behind) : j < 24 := List.mem_range.1 (hrange ▸ hj)
  have hother : i ∉ before ++ behind := (List.nodup_cons.1 (List.nodup_middle.1 hnodup)).1
  have hne {j : Nat} (hj : j ∈ before ++ behind) : i ≠ j := fun hij => hother (hij ▸ hj)
  refine ⟨before.foldl (fun v j => slotFrame j v) s,
    foldl_slotFrame_bystands before (fun j hj => ⟨hlt (by simp [hj]), hne (by simp [hj])⟩) s, ?_⟩
  have hlast := foldl_slotFrame_bystands behind (fun j hj => ⟨hlt (by simp [hj]), hne (by simp [hj])⟩)
    (slotFrame i (before.foldl (fun v j => slotFrame j v) s))
  rwa [forSlots, hrange, List.foldl_append, List.foldl_cons]

/-- A slot in use that is in use after its own turn stands at the end as that turn leaves it. -/
theorem forSlots_busy {i : Nat} (hi : i < 24) {s : State} (hbusy : (s.slotAt i).state ≠ .idle) {f : Slot → Slot}
    (hturn : ∀ v : State, v.slotAt i = s.slotAt i → (slotFrame i v).slotAt i = f (s.slotAt i))
    (hstill : (f (s.slotAt i)).state ≠ .idle) : (forSlots slotFrame s).slotAt i = f (s.slotAt i) := by
  obtain ⟨v, hbefore, hbehind⟩ := forSlots_turn hi s
  have hown := hturn v (hbefore.busy hbusy)
  exact (hbehind.busy (by rwa [hown])).trans hown

/-- A slot that is IDLE when the slots' turns begin yields nothing (R122). -/
theorem forSlots_idle {i : Nat} (hi : i < 24) {s : State} (hidle : (s.slotAt i).state = .idle) :
    ((forSlots slotFrame s).slotAt i).out = 0 := by
  obtain ⟨v, hbefore, hbehind⟩ := forSlots_turn hi s
  have hrests : (v.slotAt i).state = .idle ∨ (v.slotAt i).state = .priming := by
    rcases hbefore with heq | ⟨_, hpriming, _⟩
    · exact .inl (heq ▸ hidle)
    · exact .inr hpriming
  refine hbehind.out ?_
  rw [slotFrame_rests hrests, State.modSlot_slotAt, if_pos ⟨rfl, hi⟩]

/-! ### The frame -/

/-- A frame that begins in a block that is not complete is the work of the frame, behind the words that are missing (R154,
R173). -/
theorem frameBoundary_room {s : State} (h : s.tmn.mayBegin = true) (hroom : s.tmn.frames < 40) :
    frameBoundary s = frameWork (missingWords s) := by
  have hroom' : (missingWords s).tmn.frames < 40 := by simpa using hroom
  rw [frameBoundary_begins h]
  rcases blockBoundary_cases (missingWords s) with ⟨hfull, _⟩ | ⟨_, heq⟩
  · omega
  · rw [heq]

/-- The slots of a frame are the slots' turns on a state with the slots of the old one. -/
theorem frameBoundary_slots {s : State} (h : s.tmn.mayBegin = true) (hroom : s.tmn.frames < 40) (i : Nat) :
    ∃ u : State, u.slotAt i = s.slotAt i ∧ (frameBoundary s).slotAt i = (forSlots slotFrame u).slotAt i := by
  refine ⟨frameOut (missingWords s), ?_, ?_⟩
  · rw [slotAt_congr (frameOut_stands _).1.slot, slotAt_congr (missingWords_stands s).1.slot]
  · have hbegun (t : State) : ((t.modTmn Timing.frameBegun).setWords 0).slotAt i = t.slotAt i := rfl
    rw [frameBoundary_room h hroom, frameWork_eq, hbegun]

end Sys2Proof.Machine

open Sys2Proof Sys2Proof.Machine

/-- Settles O36: the frame's turn of the slot itself, beside which the turns of the others leave a slot in use. -/
theorem slotsYieldOneSampleAFrame : Obligations.SlotsYieldOneSampleAFrame := by
  intro s i hbegin hroom hi
  have hmay := (mayBegin_iff s.tmn).2 hbegin
  obtain ⟨u, hu, ht⟩ := frameBoundary_slots hmay hroom i
  have hown {f : Slot → Slot} (hstate : (s.slotAt i).state ≠ .idle) (hstill : (f (s.slotAt i)).state ≠ .idle)
      (hturn : ∀ v : State, v.slotAt i = s.slotAt i → (slotFrame i v).slotAt i = (v.modSlot i f).slotAt i) :
      (frameBoundary s).slotAt i = f (s.slotAt i) := by
    rw [ht, ← hu]
    refine forSlots_busy hi (hu ▸ hstate) (fun v hv => ?_) (hu ▸ hstill)
    rw [hturn v (hv.trans hu), State.modSlot_slotAt, if_pos ⟨rfl, hi⟩, hv]
  have htaken {y : Int} (hstate : (s.slotAt i).state ≠ .idle)
      (hturn : ∀ v : State, v.slotAt i = s.slotAt i → slotFrame i v = v.modSlot i (Slot.taken y)) :
      (frameBoundary s).slotAt i = (s.slotAt i).taken y :=
    hown hstate hstate fun v hv => congrArg (fun t : State => t.slotAt i) (hturn v hv)
  have hfades (hstopping : (s.slotAt i).state = .stopping)
      (hmore : (s.slotAt i).begun = false ∨ (s.slotAt i).buffer.length ≠ 1 ∨ 0 < (s.slotAt i).left)
      (hramp : (s.slotAt i).dir = some .rising ∨ (s.slotAt i).stepRamp ≠ 0) :
      (frameBoundary s).slotAt i = (s.slotAt i).fades := by
    have hbusy : (s.slotAt i).state ≠ .idle := by simp [hstopping]
    refine hown hbusy (Slot.fades_busy hbusy) fun v hv => ?_
    rw [slotFrame_fades (hv ▸ hstopping) (hv ▸ hmore) (hv ▸ hramp)]
  refine ⟨frameBoundary s, rfl, fun hwords => ?_, fun hidle => ?_, fun hpriming => ?_, fun y ys hplaying hbuffer => ?_,
    fun hplaying hempty => ⟨?_, fun hnew => ?_, fun hold => ?_⟩, fun y z ys hending hbuffer => ?_,
    fun hstopping hunbegun hfalling hramp => ?_, fun ys hstopping hbegun hfalling hramp hbuffer hmore => ?_,
    fun ys hstopping hbegun hrising hramp hbuffer hmore => ?_⟩
  · exact ⟨_, frameBoundary_frame hmay hwords hroom ▸ frameWork_runs s⟩
  · rw [ht]
    exact forSlots_idle hi (hu ▸ hidle)
  · exact hown (f := fun x => { x with out := 0 }) (by simp [hpriming]) (by simp [hpriming]) fun v hv =>
      congrArg (fun t : State => t.slotAt i) (slotFrame_rests (.inr (hv ▸ hpriming)))
  · rw [htaken (by simp [hplaying]) fun v hv => slotFrame_plays (hv ▸ hplaying) (hv ▸ hbuffer), Slot.taken, hbuffer]
    rfl
  · exact hown (f := fun x => { x with out := 0, underrun := true }) (by simp [hplaying]) (by simp [hplaying]) fun v hv =>
      slotFrame_underruns_slotAt (hv ▸ hplaying) (hv ▸ hempty)
  · exact (slotFrame_underruns hplaying hempty).trans (if_neg (by simp [hnew]))
  · have hstill := (slotFrame_underruns hplaying hempty).trans (if_pos hold)
    exact hstill.trans (s.modSlot_congr (by simp [hold]))
  · rw [htaken (y := y) (by simp [hending]) fun v hv => ?_, Slot.taken, hbuffer]
    · rfl
    · rw [slotFrame_drains (hv ▸ hending) (by simp [hv, hbuffer]), hv, hbuffer]
      rfl
  · have hstep := Slot.stepRamp_falling hfalling
    rw [hfades hstopping (.inl hunbegun) (.inr (by omega)), Slot.fades_unbegun hfalling hunbegun]
  · subst hbuffer
    have hstep := Slot.stepRamp_falling hfalling
    rw [hfades hstopping (.inr hmore) (.inr (by omega)), Slot.fades_falling hfalling hbegun]
  · subst hbuffer
    rw [hfades hstopping (.inr hmore) (.inl hrising), Slot.fades_rising hrising hbegun hramp, ← hstopping]

end

section
/-! SUPPORT. The store commands and the operation in flight: what an acceptance sets, what the end of a step or of the operation
leaves, and the statements on them (R142 to R146, R148, R149). -/

namespace Sys2Proof.Machine

/-! ### Changes of every clip -/

/-- A pass over the clips changes the catalogue alone. -/
theorem forClips_modClip (f : Nat → Clip → Clip) (s : State) : forClips (fun c s => s.modClip c (f c)) s =
    { s with clip := (forClips (fun c s => s.modClip c (f c)) s).clip } :=
  forClips_keeps (fun t => t = { s with clip := t.clip }) _
    (fun c t _ ht => congrArg (fun v : State => { v with clip := (t.modClip c (f c)).clip }) ht) s rfl

theorem liftFences_eq (s : State) : liftFences s = { s with clip := (liftFences s).clip } := forClips_modClip _ s

theorem fenceRange_eq (start size : Nat) (s : State) :
    fenceRange start size s = { s with clip := (fenceRange start size s).clip } := forClips_modClip _ s

/-! ### The checks and the acceptance (R142, R148) -/

theorem Clip.overlaps_eq (e : Clip) (start size : Nat) : e.overlaps start size =
    (match e.body with
      | some b => decide (b.start < start + size ∧ start < b.start + b.length)
      | none => false) := by
  unfold Clip.overlaps rangesMeet
  cases e.body with
  | none => rfl
  | some b => exact (Bool.decide_and ..).symm

theorem rangeInUse_iff (s : State) (start size : Nat) : s.rangeInUse start size = true ↔
    ∃ c, c < 128 ∧ (s.clipAt c).overlaps start size = true ∧ (0 < (s.clipAt c).use ∨ s.bound c = true) := by
  simp [State.rangeInUse]

/-- What STORE_ERASE and STORE_WRITE do with a range that is in bounds or out of them (R142). -/
def State.takeOperation (s : State) (out : Prop) [Decidable out] (kind : OpKind) (start size : Nat) (data : List Byte) :
    State × Answer :=
  if out then (s, .bare .range)
  else if s.store.op.isSome then (s, .bare .busy)
  else if s.rangeInUse start size then (s, .bare .inUse)
  else (acceptOperation kind start size data s, .bare .taken)

theorem storeEraseCore_eq {ps : List Byte} {n : Nat} (hn : field2 ps 0 = n) (s : State) :
    storeEraseCore ps s = s.takeOperation (n = 0 ∨ 4095 < n) .erase (4096 * n) 4096 [] := by
  subst hn
  rfl

theorem storeWriteCore_eq {ps : List Byte} {a m : Nat} (ha : field3 ps 0 = a) (hm : field1 ps 3 = m) (s : State) :
    storeWriteCore ps s =
      s.takeOperation (m = 0 ∨ 32 < m ∨ a < 4096 ∨ 256 < a % 256 + m) .write a m (ps.drop 4) := by
  subst ha hm
  rfl

section
variable {s : State} {out : Prop} [Decidable out] {kind : OpKind} {start size : Nat} {data : List Byte}

theorem takeOperation_out (hout : out) : s.takeOperation out kind start size data = (s, .bare .range) := if_pos hout

theorem takeOperation_busy (hin : ¬ out) (hop : s.store.op ≠ none) :
    s.takeOperation out kind start size data = (s, .bare .busy) :=
  (if_neg hin).trans (if_pos (Option.isSome_iff_ne_none.2 hop))

theorem takeOperation_used (hin : ¬ out) (hop : s.store.op = none) (hused : s.rangeInUse start size = true) :
    s.takeOperation out kind start size data = (s, .bare .inUse) :=
  (if_neg hin).trans ((if_neg (by simp [hop])).trans (if_pos hused))

theorem takeOperation_taken (hin : ¬ out) (hop : s.store.op = none) (hunused : ¬ s.rangeInUse start size = true) :
    s.takeOperation out kind start size data = (acceptOperation kind start size data s, .bare .taken) :=
  (if_neg hin).trans ((if_neg (by simp [hop])).trans (if_neg hunused))

theorem saveDirectoryCore_busy (hop : s.store.op ≠ none) : saveDirectoryCore s = (s, .bare .busy) :=
  if_pos (Option.isSome_iff_ne_none.2 hop)

theorem saveDirectoryCore_taken (hop : s.store.op = none) :
    saveDirectoryCore s = (acceptOperation .save 0 4096 s.directoryImage s, .bare .taken) :=
  if_neg (by simp [hop])

end

/-- An acceptance sets the operation in flight, and fences the entries that overlap its range (R142, R148). -/
theorem acceptOperation_changes (kind : OpKind) (start size : Nat) (data : List Byte) (s : State) :
    ∃ t, acceptOperation kind start size data s = t ∧
      t.store = { s.store with op := some { kind := kind, start := start, size := size, data := data, step := 0,
                                            phase := .notStarted, runTime := 0, clock := 0 } } ∧
      (∀ c, c < 128 → t.clipAt c =
        { s.clipAt c with fenced := (s.clipAt c).fenced || (s.clipAt c).overlaps start size }) ∧
      t = { s with store := t.store, clip := t.clip } := by
  refine ⟨_, rfl, acceptOperation_store kind start size data s, fun c hc => ?_, ?_⟩
  · refine (fenceRange_clipAt start size _ hc).trans ?_
    show (if (s.clipAt c).overlaps start size then { s.clipAt c with fenced := true } else s.clipAt c) = _
    cases (s.clipAt c).overlaps start size <;> simp
  · rw [acceptOperation_store]
    exact fenceRange_eq start size _

theorem accepted_rangeInUse (s : State) (start size : Nat) : s.accepted.rangeInUse start size = s.rangeInUse start size := rfl
theorem accepted_directoryImage (s : State) : s.accepted.directoryImage = s.directoryImage := rfl

end Sys2Proof.Machine

open Sys2Proof Sys2Proof.Machine

/-- Settles O40: the three commands make the checks in one order, and share one acceptance. -/
theorem storeOperationsAreAccepted : Obligations.StoreOperationsAreAccepted := by
  intro st n a m bytes s hs hn ha hm hlen _ erase write save meets held badWrite flies
  have herase {t : State} {b : Answer}
      (hcore : s.accepted.takeOperation (n = 0 ∨ 4095 < n) .erase (4096 * n) 4096 [] = (t, b)) :
      erase = .next (t.owe st 0x50 b) :=
    heeded_answer hs rfl ((storeEraseCore_eq (field2_toByte n _ hn) _).trans hcore)
  have hwrite {t : State} {b : Answer} (hcore : s.accepted.takeOperation badWrite .write a m bytes = (t, b)) :
      write = .next (t.owe st 0x51 b) := by
    have hcount : field1 ([toByte (a / 65536), toByte (a / 256), toByte a, toByte m] ++ bytes) 3 = m :=
      field1_toByte m bytes hm
    refine heeded_answer hs ?_ ((storeWriteCore_eq (field3_toByte a _ ha) hcount _).trans hcore)
    rw [hcount]
    simp +arith [hlen]
  have hsave {t : State} {b : Answer} (hcore : saveDirectoryCore s.accepted = (t, b)) : save = .next (t.owe st 0x53 b) :=
    heeded_answer hs rfl hcore
  have hheld (start size : Nat) : s.accepted.rangeInUse start size = true ↔ held start size := by
    rw [accepted_rangeInUse, rangeInUse_iff]
    simp only [bound_iff_clip, Clip.overlaps_eq]
    rfl
  have hflies {r : Host.Outcome State Fault Refusal} {code : Byte} {k : OpKind} {start size : Nat} {d : List Byte}
      (hr : r = .next ((acceptOperation k start size d s.accepted).owe st code (.bare .taken))) :
      flies r code k start size d := by
    obtain ⟨u, hu, hstore, hclip, heq⟩ := acceptOperation_changes k start size d s.accepted
    simp only [Clip.overlaps_eq] at hclip
    exact ⟨u.owe st code (.bare .taken), hu ▸ hr, hstore, hclip,
      congrArg (fun t : State => t.owe st code (.bare .taken)) heq⟩
  have hop : s.accepted.store.op = s.store.op := accepted_op s
  refine ⟨fun hout => herase (takeOperation_out hout), fun hbad => hwrite (takeOperation_out hbad),
    fun hbusy => ⟨fun _ _ => ?_, fun hfit => ?_, ?_⟩, fun hfree => ⟨fun _ _ => ⟨fun hused => ?_, fun hunused => ?_⟩,
      fun hfit => ⟨fun hused => ?_, fun hunused => ?_⟩, ?_⟩⟩
  · exact herase (takeOperation_busy (by omega) (hop ▸ hbusy))
  · exact hwrite (takeOperation_busy hfit (hop ▸ hbusy))
  · exact hsave (saveDirectoryCore_busy (hop ▸ hbusy))
  · exact herase (takeOperation_used (by omega) (hop.trans hfree) ((hheld _ _).2 hused))
  · exact hflies (herase (takeOperation_taken (by omega) (hop.trans hfree) (mt (hheld _ _).1 hunused)))
  · exact hwrite (takeOperation_used hfit (hop.trans hfree) ((hheld _ _).2 hused))
  · exact hflies (hwrite (takeOperation_taken hfit (hop.trans hfree) (mt (hheld _ _).1 hunused)))
  · exact hflies (hsave ((saveDirectoryCore_taken (hop.trans hfree)).trans (by rw [accepted_directoryImage])))

end

section
/-! SUPPORT. The end of a step of the operation in flight and of the operation itself, and the statement on its steps (R142 to
R146, R149). -/

namespace Sys2Proof.Machine

/-! ### What asks for the link (R119, R142, R144) -/

theorem anyAsking_iff (s : State) : s.anyAsking = true ↔ ∃ i, i < 24 ∧ (s.slotAt i).asks = true := by
  simp [State.anyAsking]

/-- No read is pending and no slot asks. -/
def State.linkQuiet (s : State) : Prop := s.store.read = none ∧ ¬ s.anyAsking = true

theorem operationStepStart_starts {s : State} {o : Operation} (ho : s.store.op = some o) (hphase : o.phase = .notStarted)
    (hidle : s.store.activity = .idle) (hquiet : s.linkQuiet) :
    operationStepStart s = s.modStore (fun u => { u with op := some { o with phase := .waitReady } }) := by
  unfold operationStepStart
  rw [ho]
  exact if_pos ⟨hphase, hidle, hquiet⟩

theorem operationStepStart_waits {s : State} {o : Operation} (ho : s.store.op = some o)
    (hnot : o.phase ≠ .notStarted ∨ s.store.activity ≠ .idle ∨ ¬ s.linkQuiet) : operationStepStart s = s := by
  unfold operationStepStart
  rw [ho]
  refine if_neg fun ⟨hphase, hidle, hquiet⟩ => ?_
  exact hnot.elim (fun h => h hphase) fun h => h.elim (fun h => h hidle) fun h => h hquiet

theorem eraseResume_resumes {s : State} {o : Operation} (ho : s.store.op = some o)
    (hpaused : s.store.activity = .eraseSuspended) (hquiet : s.linkQuiet) : eraseResume s = s.modStore (fun u =>
      { u with activity := .eraseRunning, request := some .resume, op := some { o with phase := .erasing } }) := by
  unfold eraseResume
  rw [ho]
  exact if_pos ⟨hpaused, hquiet⟩

theorem eraseResume_waits {s : State} {o : Operation} (ho : s.store.op = some o)
    (hnot : s.store.activity ≠ .eraseSuspended ∨ ¬ s.linkQuiet) : eraseResume s = s := by
  unfold eraseResume
  rw [ho]
  exact if_neg fun ⟨hpaused, hquiet⟩ => hnot.elim (fun h => h hpaused) fun h => h hquiet

/-! ### The store is ready (R143, R145) -/

theorem Operation.stepErases_iff (o : Operation) :
    o.stepErases = true ↔ o.kind = .erase ∨ (o.kind = .save ∧ o.step = 0) := by
  simp [Operation.stepErases]

theorem stepStoreReady_erases {s : State} {o : Operation} (ho : s.store.op = some o) (hphase : o.phase = .waitReady)
    (herases : o.stepErases = true) : stepStoreReady s = s.modStore (fun u =>
      { u with activity := .eraseRunning, request := some (.erase (o.start / 4096)),
               op := some { o with phase := .erasing, runTime := 0, clock := 0 } }) := by
  unfold stepStoreReady
  rw [ho]
  exact (if_pos hphase).trans (if_pos herases)

theorem stepStoreReady_programs {s : State} {o : Operation} (ho : s.store.op = some o) (hphase : o.phase = .waitReady)
    (herases : ¬ o.stepErases = true) : stepStoreReady s = s.modStore (fun u =>
      { u with activity := .program, request := some o.stepProgram,
               op := some { o with phase := .programming, clock := 0 } }) := by
  unfold stepStoreReady
  rw [ho]
  exact (if_pos hphase).trans (if_neg herases)

/-! ### A step ends (R143 to R145) -/

/-- The activity of a link that the step in progress has left: a fetch or a read goes on. -/
def LinkActivity.left (a : LinkActivity) : LinkActivity := if a = .fetch ∨ a = .read then a else .idle

/-- The step in progress has left the link. -/
def State.stepGone (s : State) : State := s.modStore (fun u => { u with activity := u.activity.left })

theorem Store.Linked.eraseGone {u : Store} (h : u.Linked) (hphase : u.phase = some .erasing ∨ u.phase = some .suspending) :
    u.eraseGone = { u with activity := u.activity.left } := by
  have hactivity : u.eraseGone.activity = u.activity.left := by
    unfold Store.eraseGone LinkActivity.left
    rcases LinkActivity.of_erase h.phase hphase with ha | ha | ha | ha <;> rw [ha] <;> rfl
  rw [← hactivity]
  rfl

theorem Store.Linked.programmed {u : Store} (h : u.Linked) (hphase : u.phase = some .programming) :
    u.activity.left = .idle := by
  have hin := h.phase
  rw [hphase] at hin
  cases ha : u.activity <;> simp_all [LinkActivity.phases, LinkActivity.left]

section
variable {s : State} (h : s.store.Linked)
include h

theorem eraseGone_stepGone (hphase : s.phase = some .erasing ∨ s.phase = some .suspending) :
    s.modStore Store.eraseGone = s.stepGone :=
  congrArg (fun u => { s with store := u }) (h.eraseGone hphase)

theorem programmed_stepGone (hphase : s.phase = some .programming) :
    s.modStore (fun u => { u with activity := .idle }) = s.stepGone :=
  congrArg (fun a => { s with store := { s.store with activity := a } }) (h.programmed hphase).symm

theorem exec_eraseDone (hphase : s.phase = some .erasing ∨ s.phase = some .suspending) :
    exec .eraseDone s = .next (stepEnded s.stepGone) :=
  congrArg Host.Outcome.next (eraseGone_stepGone h hphase ▸ if_pos hphase)

theorem exec_eraseTimeout (hphase : s.phase = some .erasing) :
    exec .eraseTimeout s = .next (storeDone .timeout s.stepGone) :=
  congrArg Host.Outcome.next (eraseGone_stepGone h (.inl hphase) ▸ if_pos hphase)

theorem exec_suspendTimeout (hphase : s.phase = some .suspending) :
    exec .suspendTimeout s = .next (storeDone .timeout s.stepGone) :=
  congrArg Host.Outcome.next (eraseGone_stepGone h (.inr hphase) ▸ if_pos hphase)

theorem exec_programDone (hphase : s.phase = some .programming) :
    exec .programDone s = .next (stepEnded s.stepGone) :=
  congrArg Host.Outcome.next (programmed_stepGone h hphase ▸ if_pos hphase)

theorem exec_programTimeout (hphase : s.phase = some .programming) :
    exec .programTimeout s = .next (storeDone .timeout s.stepGone) :=
  congrArg Host.Outcome.next (programmed_stepGone h hphase ▸ if_pos hphase)

end

theorem stepEnded_saves {s : State} {o : Operation} (ho : s.store.op = some o) (hsave : o.kind = .save) (hmore : o.step < 7) :
    stepEnded s = s.modStore (fun u => { u with op := some { o with step := o.step + 1, phase := .notStarted } }) := by
  unfold stepEnded
  rw [ho]
  exact if_pos ⟨hsave, hmore⟩

theorem stepEnded_last {s : State} {o : Operation} (ho : s.store.op = some o) (hlast : o.kind ≠ .save ∨ 7 ≤ o.step) :
    stepEnded s = storeDone .ok s := by
  unfold stepEnded
  rw [ho]
  exact if_neg fun ⟨hsave, hmore⟩ => hlast.elim (fun h => h hsave) fun h => absurd hmore (Nat.not_lt_of_le h)

/-! ### The operation ends (R146) -/

/-- The notice of an ended operation. -/
def Operation.notice (o : Operation) (why : Cause) (stamp : Nat) : Notice :=
  { kind := .storeDone, position := none, subject := some (opCode o.kind), cause := some why, value := some o.value,
    stamp := stamp }

/-- At its end the operation is removed, every fence is lifted, and STORE_DONE joins the queue of MAINT (R146). -/
theorem storeDone_changes (why : Cause) {s : State} {o : Operation} (ho : s.store.op = some o) :
    ∃ t, storeDone why s = t ∧ t.store = { s.store with op := none } ∧
      (∀ c, c < 128 → t.clipAt c = { s.clipAt c with fenced := false }) ∧
      t.maintQ = s.maintQ.push (o.notice why s.tmn.blockCount) s.resetHeld ∧
      t = { s with store := t.store, clip := t.clip, maintQ := t.maintQ } := by
  have hdone : storeDone why s = ((liftFences s).modStore (fun u => { u with op := none })).post .maint .storeDone none
      (some (opCode o.kind)) (some why) (some o.value) := by
    unfold storeDone
    rw [ho]
  have hclip (c : Nat) (hc : c < 128) := liftFences_clipAt s hc
  obtain ⟨w, hw⟩ : ∃ w, liftFences s = { s with clip := w } := ⟨_, liftFences_eq s⟩
  rw [hw] at hdone hclip
  exact ⟨_, hdone, rfl, hclip, rfl, rfl⟩

end Sys2Proof.Machine

open Sys2Proof Sys2Proof.Machine

/-- Settles O41: under the law of the link every end of a step leaves the link alike, and goes on or ends the operation. -/
theorem operationStepsRunInOrder : Obligations.OperationStepsRunInOrder := by
  intro s o ho hlaw u asks quiet moved erases page gone ends passes
  have hlinked : s.store.Linked := (storeLinkLaw_iff s).1 hlaw
  have hphase {ph : StepPhase} (h : o.phase = ph) : s.phase = some ph := by rw [State.phase, ho, Option.map_some, h]
  have hquiet : s.linkQuiet ↔ quiet := by
    have hasks (i : Nat) : (s.slotAt i).asks = true ↔ asks i := Slot.asks_iff _
    refine and_congr_right fun _ => (not_congr (anyAsking_iff s)).trans ?_
    simp only [hasks, not_exists, not_and]
  have hends (why : Cause) : ends (.next (storeDone why s.stepGone)) why := by
    obtain ⟨t, ht, hstore, hclip, hqueue, heq⟩ := storeDone_changes (s := s.stepGone) why ho
    refine ⟨t, congrArg _ ht, hstore, hclip, hqueue.trans ?_, heq⟩
    cases hkind : o.kind <;> simp only [Operation.notice, Operation.value, hkind] <;> rfl
  have hpasses : passes (.next (stepEnded s.stepGone)) := by
    refine ⟨fun hsave hmore => ?_, fun hlast => ?_⟩
    · rw [stepEnded_saves (s := s.stepGone) ho hsave hmore]
      rfl
    · rw [stepEnded_last (s := s.stepGone) ho hlast]
      exact hends .ok
  refine ⟨fun hnot hidle hq => ?_, fun hbusy => ?_, fun hwait => ⟨fun herases => ?_, fun hprograms => ?_⟩,
    fun herasing => ⟨?_, ?_⟩, fun hsuspending => ⟨?_, ?_⟩, fun hprogramming => ⟨?_, ?_⟩, fun hpaused hq => ?_, fun hnot => ?_⟩
  · exact congrArg Host.Outcome.next (operationStepStart_starts ho hnot hidle (hquiet.2 hq))
  · exact congrArg Host.Outcome.next (operationStepStart_waits ho (by rwa [hquiet]))
  · exact congrArg Host.Outcome.next (stepStoreReady_erases ho hwait (o.stepErases_iff.2 herases))
  · refine (congrArg Host.Outcome.next (stepStoreReady_programs ho hwait (mt o.stepErases_iff.1 hprograms))).trans ?_
    cases hkind : o.kind <;> simp only [Operation.stepProgram, moved, page, hkind] <;> rfl
  · exact exec_eraseDone hlinked (.inl (hphase herasing)) ▸ hpasses
  · exact exec_eraseTimeout hlinked (hphase herasing) ▸ hends .timeout
  · exact exec_eraseDone hlinked (.inr (hphase hsuspending)) ▸ hpasses
  · exact exec_suspendTimeout hlinked (hphase hsuspending) ▸ hends .timeout
  · exact exec_programDone hlinked (hphase hprogramming) ▸ hpasses
  · exact exec_programTimeout hlinked (hphase hprogramming) ▸ hends .timeout
  · exact congrArg Host.Outcome.next (eraseResume_resumes ho hpaused (hquiet.2 hq))
  · exact congrArg Host.Outcome.next (eraseResume_waits ho (by rwa [hquiet]))

end

section
/-! SUPPORT. STORE_READ from its acceptance to its outcome, and the statement on it (R147, R189). -/

namespace Sys2Proof.Machine

theorem storeReadCore_eq {ps : List Byte} {a n : Nat} (ha : field3 ps 0 = a) (hn : field1 ps 3 = n) (s : State) :
    storeReadCore ps s = if n = 0 ∨ 32 < n ∨ 16777216 < a + n then (s, .bare .range)
      else if (s.store.op.map (·.kind)) = some .write ∨ (s.store.op.map (·.kind)) = some .save then (s, .bare .busy)
      else (s.modStore (fun u => { u with read := some { addr := a, count := n, holding := false, clock := 0 } }),
        { status := .done, waiting := true }) := by
  subst ha hn
  rfl

/-- Each operation in flight but an erase keeps a read away (R147). -/
theorem opKind_writes_iff (o : Option Operation) : (o.map (·.kind) = some .write ∨ o.map (·.kind) = some .save) ↔
    ∃ p, o = some p ∧ p.kind ≠ .erase := by
  cases o with
  | none => simp
  | some p => cases hkind : p.kind <;> simp [hkind]

theorem storeReadServe_eq {s : State} {r : PendingRead} (hr : s.store.read = some r) : storeReadServe s =
    if s.store.linkFree = true ∧ ¬ r.holding = true then
      s.modStore (fun u => { u.suspendErase with activity := .read, read := some { r with holding := true } })
    else s := by
  unfold storeReadServe
  rw [hr]

theorem Store.dropRead_eq {u : Store} {r : PendingRead} (hr : u.read = some r) : u.dropRead = { u with
    read := none
    activity := if r.holding = true then
        (if u.phase = some .suspending ∨ u.phase = some .suspended then .eraseSuspended else .idle)
      else u.activity } := by
  unfold Store.dropRead
  rw [hr]
  dsimp only
  rw [Store.released_eq]

/-- What a completed read leaves of the store (R144, R147). -/
theorem Store.readAnswered_eq {u : Store} {r : PendingRead} (hr : u.read = some r) (hholds : r.holding = true) :
    { u.suspendAnswered.dropRead with request := some (.read r.addr r.count) } = { u with
      read := none
      activity := if u.phase = some .suspending ∨ u.phase = some .suspended then .eraseSuspended else .idle
      op := u.op.map (fun o => if o.phase = .suspending then { o with phase := .suspended } else o)
      request := some (.read r.addr r.count) } := by
  rw [Store.dropRead_eq (u := u.suspendAnswered) hr, if_pos hholds, ← Store.released_eq, Store.suspendAnswered_released,
    Store.released_eq]
  rfl

theorem storeReadComplete_eq {bytes : List Byte} {s : State} {r : PendingRead} (hr : s.store.read = some r) :
    storeReadComplete bytes s = if r.holding = true ∧ bytes.length = r.count then
      (s.modStore (fun u => { u.suspendAnswered.dropRead with request := some (.read r.addr r.count) })).modPort
        (Port.outcome .done bytes)
    else s := by
  unfold storeReadComplete
  rw [hr]

theorem storeReadAbandon_eq {s : State} {r : PendingRead} (hr : s.store.read = some r) :
    storeReadAbandon s = (s.modStore Store.dropRead).modPort (Port.outcome .busy []) := by
  unfold storeReadAbandon
  rw [hr]

theorem read_events_none {s : State} (hr : s.store.read = none) (bytes : List Byte) :
    storeReadServe s = s ∧ storeReadAbandon s = s ∧ storeReadComplete bytes s = s := by
  unfold storeReadServe storeReadAbandon storeReadComplete
  rw [hr]
  exact ⟨rfl, rfl, rfl⟩

end Sys2Proof.Machine

open Sys2Proof Sys2Proof.Machine

/-- Settles O42: the command's checks, and then each event of the pending read. -/
theorem readsAreServedAndAnswered : Obligations.ReadsAreServedAndAnswered := by
  intro st a n bytes s ha hn u run paused answered
  refine ⟨fun hs => ?_, fun r hr => ⟨fun hwaits hactivity hphase => ?_, fun hnot => ?_, fun hholds hlen => ?_,
    fun hnot => ?_, ?_⟩, fun hnone => ?_⟩
  · have hcount : field1 [toByte (a / 65536), toByte (a / 256), toByte a, toByte n] 3 = n := field1_toByte n [] hn
    have hcore := storeReadCore_eq (field3_toByte a [toByte n] ha) hcount s.accepted
    have hkinds := opKind_writes_iff s.accepted.store.op
    rw [accepted_op] at hkinds hcore
    refine ⟨fun hout => heeded_refusal hs rfl (hcore.trans (if_pos hout)), fun _ _ _ => ?_⟩
    have hin : ¬ (n = 0 ∨ 32 < n ∨ 16777216 < a + n) := by omega
    refine ⟨fun o ho hkind => ?_, fun herase => ?_⟩
    · exact heeded_refusal hs rfl (hcore.trans ((if_neg hin).trans (if_pos (hkinds.2 ⟨o, ho, hkind⟩))))
    · refine heeded_answer hs rfl (hcore.trans ((if_neg hin).trans (if_neg fun hbusy => ?_)))
      obtain ⟨o, ho, hkind⟩ := hkinds.1 hbusy
      exact hkind (herase o ho)
  · show Host.Outcome.next (storeReadServe s) = _
    rw [storeReadServe_eq hr, if_pos ⟨(Store.linkFree_iff _).2 ⟨hactivity, hphase⟩, by simp [hwaits]⟩]
    dsimp only [State.modStore]
    rw [Store.suspendErase_eq]
  · refine congrArg Host.Outcome.next ((storeReadServe_eq hr).trans (if_neg fun ⟨hfree, hwaits⟩ => ?_))
    obtain ⟨hactivity, hphase⟩ := (Store.linkFree_iff _).1 hfree
    rcases hnot with hholds | hbusy | hbusy | hbusy | hstarted
    · exact hwaits hholds
    · exact nomatch hbusy ▸ hactivity
    · exact nomatch hbusy ▸ hactivity
    · exact nomatch hbusy ▸ hactivity
    · exact hphase hstarted
  · refine congrArg Host.Outcome.next ((storeReadComplete_eq hr).trans ((if_pos ⟨hholds, hlen⟩).trans ?_))
    exact congrArg (fun v => { s with store := v, port := answered .done bytes s.port }) (Store.readAnswered_eq hr hholds)
  · refine congrArg Host.Outcome.next ((storeReadComplete_eq hr).trans (if_neg fun ⟨hholds, hlen⟩ => ?_))
    rcases hnot with hwaits | hother
    · exact absurd (hwaits.symm.trans hholds) Bool.false_ne_true
    · exact hother hlen
  · refine congrArg Host.Outcome.next ((storeReadAbandon_eq hr).trans ?_)
    exact congrArg (fun v => { s with store := v, port := answered .busy [] s.port }) (Store.dropRead_eq hr)
  · obtain ⟨hserve, habandon, hcomplete⟩ := read_events_none hnone bytes
    exact ⟨congrArg _ hserve, congrArg _ habandon, congrArg _ hcomplete⟩

end

section
/-! SUPPORT. The event that is due on an empty queue, block by block, and the statement on it (R140 to R147, R151, R172 to R178,
R184, R186, R189). -/

namespace Sys2Proof.Machine

/-! ### The order among the blocks -/

section
variable {s : State} {c : Instr}

theorem step_due (hqueue : s.pending = []) (hdue : due s = some c) : step s = exec c s := by
  unfold step
  rw [hqueue]
  dsimp only
  rw [hdue]

theorem step_tick (hqueue : s.pending = []) (hdue : due s = none) : step s = .next (tick s) := by
  unfold step
  rw [hqueue]
  dsimp only
  rw [hdue]

theorem due_of_timing (h : s.dueTiming = some c) : due s = some c := by simp [due, h]

theorem due_of_port (htiming : s.dueTiming = none) (h : s.port.due s.resetHeld = some c) : due s = some c := by
  simp [due, htiming, h]

theorem due_of_store (htiming : s.dueTiming = none) (hport : s.port.due s.resetHeld = none) (h : s.store.overdue = some c) :
    due s = some c := by
  simp [due, htiming, hport, h]

theorem due_of_arbiter (htiming : s.dueTiming = none) (hport : s.port.due s.resetHeld = none) (hstore : s.store.overdue = none)
    (h : s.arbiter = some c) : due s = some c := by
  simp [due, htiming, hport, hstore, h]

end

/-! ### A tick (R172) -/

theorem Operation.tick_eq (a : LinkActivity) (o : Operation) : o.tick (a == .eraseRunning) =
    { o with clock := o.clock + 1, runTime := if a = .eraseRunning then o.runTime + 1 else o.runTime } := by
  cases a <;> rfl

theorem Store.tick_eq (u : Store) : u.tick = { u with
    op := u.op.map (fun o =>
      { o with clock := o.clock + 1, runTime := if u.activity = .eraseRunning then o.runTime + 1 else o.runTime })
    read := u.read.map (fun r => { r with clock := r.clock + 1 })
    fetch := u.fetch.map (fun f => { f with clock := f.clock + 1 })
    startup := u.startup.map (fun l => { l with clock := l.clock + 1 }) } := by
  unfold Store.tick
  rw [funext (Operation.tick_eq u.activity)]

theorem Port.inFrame_iff (q : Port) : q.inFrame = true ↔ q.state ≠ .sleep := by simp [Port.inFrame]

theorem Port.tick_eq (q : Port) : q.tick = { q with
    idle := if q.state ≠ .sleep ∧ q.sending = none then q.idle + 1 else q.idle
    quiet := if q.sending = none ∧ q.coming = none then min 197 (q.quiet + 1) else q.quiet
    coming := q.coming.map (fun c => { c with clock := c.clock + 1 })
    owed := q.owed.map (fun o => { o with clock := o.clock + 1 }) } := by
  unfold Port.tick
  simp only [Bool.and_eq_true, Port.inFrame_iff, Option.isNone_iff_eq_none]
  rfl

/-! ### Timing (R173 to R178, R182) -/

section
variable {s : State}

theorem dueTiming_grace (h : s.tmn.graceOver = true) : s.dueTiming = some .graceTimerExpiry := if_pos h

theorem dueTiming_boundary (hgrace : s.tmn.graceOver = false) (h : s.tmn.boundary ≠ none) :
    s.dueTiming = some .frameBoundary :=
  (if_neg (by simp [hgrace])).trans (if_pos (Option.isSome_iff_ne_none.2 h))

/-- With no expiry and no marked boundary the timers decide. -/
theorem dueTiming_timers (hgrace : s.tmn.graceOver = false) (hboundary : s.tmn.boundary = none) : s.dueTiming =
    if s.tmn.state ≠ .locked ∧ 2048 ≤ s.tmn.frameTimer then
      some (if 40 ≤ s.tmn.frames then .blockBoundary else .frameBoundary)
    else if s.tmn.state = .locked ∧ 2112 ≤ s.tmn.syncTicks then some .clockFail
    else if s.tmn.state = .acquiring ∧ 2112 ≤ s.tmn.syncTicks then some .acquisitionTimeout
    else none := by
  refine (if_neg (by simp [hgrace])).trans ((if_neg (by simp [hboundary])).trans ?_)
  rw [apply_ite some]
  simp only [State.blockComplete, decide_eq_true_eq]
  rfl

end

/-! ### The Control Link Port (R184, R186, R189) -/

theorem Coming.over_iff (c : Coming) :
    c.over = true ↔ ((12 + min c.low (24 - lowAfter c.ch)) * 16384 + 999) / 1000 ≤ c.clock := decide_eq_true_iff

section
variable {q : Port} {held : Bool}

theorem Port.due_character {c : Coming} (hc : q.coming = some c) (hover : c.over = true) :
    q.due held = some (.goodCharacter c.ch (.ended c.low)) := by
  simp [Port.due, Port.dueCharacter, hc, hover]

theorem Port.due_limit (hc : ∀ c, q.coming = some c → ¬ c.over = true) : q.due held = q.dueLimit held := by
  rcases q.due_cases held with ⟨c, hcoming, hover, _⟩ | ⟨_, hdue⟩
  · exact absurd hover (hc c hcoming)
  · exact hdue

theorem Port.dueLimit_idle (hstate : q.state ≠ .sleep) (hidle : 590 ≤ q.idle) :
    q.dueLimit held = some .receiverIdleTimeout :=
  if_pos ((Bool.and_eq_true ..).symm ▸ ⟨q.inFrame_iff.2 hstate, decide_eq_true hidle⟩)

/-- A reply with its outcome begins, or is dropped at its limit (R189). -/
theorem Port.dueLimit_reply {o : Owed} (hidle : q.state = .sleep ∨ q.idle < 590) (ho : q.owed = some o)
    (hwaiting : o.waiting = false) : q.dueLimit held =
      if 197 ≤ o.clock ∧ 197 ≤ q.quiet ∧ q.coming = none ∧ q.sending = none ∧ held = false then some .replyStart
      else if 32768 ≤ o.clock then some .replyDrop
      else none := by
  have hreceiver : ¬ (q.inFrame && decide (Config.idleLimit ≤ q.idle)) = true := by
    rw [Bool.and_eq_true, q.inFrame_iff, decide_eq_true_eq]
    rintro ⟨hstate, hlong⟩
    have hlong' : 590 ≤ q.idle := hlong
    exact hidle.elim hstate (by omega)
  refine (if_neg hreceiver).trans ?_
  have hbegins : (!held && q.mayReply) = true ↔
      197 ≤ o.clock ∧ 197 ≤ q.quiet ∧ q.coming = none ∧ q.sending = none ∧ held = false := by
    simp only [Port.mayReply, ho, Option.any_some, hwaiting, Bool.not_false, Bool.true_and, Bool.and_eq_true,
      Bool.not_eq_true', decide_eq_true_eq, Option.isNone_iff_eq_none, and_assoc]
    show held = false ∧ 197 ≤ o.clock ∧ 197 ≤ q.quiet ∧ q.coming = none ∧ q.sending = none ↔ _
    tauto
  have hdrops : q.owed.any (fun o => !o.waiting && decide (Config.replyLimit ≤ o.clock)) = true ↔ 32768 ≤ o.clock := by
    simp only [ho, Option.any_some, hwaiting, Bool.not_false, Bool.true_and, decide_eq_true_eq]
    rfl
  simp only [hbegins, hdrops]

end

/-! ### The limits of the store (R141, R143 to R145, R147, R151) -/

theorem Startup.limit_eq (l : Startup) : l.limit = if l.phase = .waitReady then 6553600 else 81920 := by
  unfold Startup.limit
  cases l.phase <;> rfl

section
variable {u : Store}

theorem Store.overdue_startup {l : Startup} (hl : u.startup = some l)
    (hover : (if l.phase = .waitReady then 6553600 else 81920) ≤ l.clock) : u.overdue = some .startupNoStore :=
  if_pos (by simpa [hl, l.limit_eq] using hover)

theorem Store.overdue_read {r : PendingRead} (hstartup : u.startup = none) (hr : u.read = some r) (hover : 16384 ≤ r.clock) :
    u.overdue = some .storeReadAbandon :=
  (if_neg (by simp [hstartup])).trans (if_pos (by rw [hr]; exact decide_eq_true hover))

theorem Store.overdue_operation {c : Instr} {o : Operation} (hstartup : u.startup = none) (hread : u.read = none)
    (ho : u.op = some o) (hover : o.due = some c) : u.overdue = some c := by
  refine (if_neg (by simp [hstartup])).trans ((if_neg (by simp [hread])).trans ?_)
  rw [show u.op.bind Operation.due = some c by simp [ho, hover]]

theorem Store.overdue_fetch {f : Fetch} (hstartup : u.startup = none) (hread : u.read = none)
    (hop : u.op.bind Operation.due = none) (hf : u.fetch = some f) (hover : 81920 ≤ f.clock) :
    u.overdue = some .fetchTimeout := by
  refine (if_neg (by simp [hstartup])).trans ((if_neg (by simp [hread])).trans ?_)
  rw [hop]
  exact if_pos (by rw [hf]; exact decide_eq_true hover)

end

section
variable (o : Operation)

theorem Operation.due_erasing (hphase : o.phase = .erasing) (hover : 6553600 ≤ o.runTime) : o.due = some .eraseTimeout := by
  unfold Operation.due
  rw [hphase]
  exact if_pos hover

theorem Operation.due_suspending (hphase : o.phase = .suspending) (hover : 81920 ≤ o.clock) :
    o.due = some .suspendTimeout := by
  unfold Operation.due
  rw [hphase]
  exact if_pos hover

theorem Operation.due_programming (hphase : o.phase = .programming) (hover : 81920 ≤ o.clock) :
    o.due = some .programTimeout := by
  unfold Operation.due
  rw [hphase]
  exact if_pos hover

end

/-! ### The arbiter (R140, R142, R144, R147) -/

/-- The search of the arbiter passes over no slot (R140). -/
theorem nextAsking_isSome_iff (s : State) : s.nextAsking.isSome = true ↔ ∃ i, i < 24 ∧ (s.slotAt i).asks = true := by
  refine ⟨fun h => ?_, fun ⟨i, hi, hasks⟩ => ?_⟩
  · obtain ⟨i, hfound⟩ := Option.isSome_iff_exists.1 h
    exact ⟨i, nextAsking_some hfound⟩
  · have hplace : (s.store.lastServed + 1 + (i + 23 * (s.store.lastServed + 1)) % 24) % 24 = i := by omega
    refine List.find?_isSome.2 ⟨i, List.mem_map.2 ⟨(i + 23 * (s.store.lastServed + 1)) % 24, ?_, hplace⟩, hasks⟩
    exact List.mem_range.2 (Nat.mod_lt _ (by omega))

section
variable {s : State}

theorem arbiter_serves {r : PendingRead} (hr : s.store.read = some r) (hwaits : r.holding = false)
    (hfree : s.store.linkFree = true) : s.arbiter = some .storeReadServe :=
  if_pos (by simp [hr, hwaits, hfree])

/-- With no read pending the asking slots come first. -/
theorem arbiter_slots (hread : s.store.read = none) : s.arbiter =
    if s.nextAsking.isSome = true then if s.store.linkFree = true then some .fetchGrant else none
    else if s.store.activity = .eraseSuspended ∧ s.phase = some .suspended then some .eraseResume
    else if s.store.activity = .idle ∧ s.phase = some .notStarted then some .operationStepStart
    else none :=
  (if_neg (by simp [hread])).trans (if_neg (by simp [hread]))

end

end Sys2Proof.Machine

open Sys2Proof Sys2Proof.Machine

/-- Settles O2: the blocks in their order, each by its limits, and the arbiter last. -/
theorem emptyQueueBringsTheTimersEvents : Obligations.EmptyQueueBringsTheTimersEvents := by
  intro s hqueue q u asks free ended
  have hfree : free → u.linkFree = true := (Store.linkFree_iff u).2
  have hasking : s.nextAsking.isSome = true ↔ ∃ i, i < 24 ∧ asks i := by
    have hasks (i : Nat) : (s.slotAt i).asks = true ↔ asks i := Slot.asks_iff _
    simp only [nextAsking_isSome_iff, hasks]
  refine ⟨step_tick hqueue, ?_, fun hgrace => step_due hqueue (due_of_timing (dueTiming_grace hgrace)),
    fun hgrace hboundary => step_due hqueue (due_of_timing (dueTiming_boundary hgrace hboundary)),
    fun hgrace hboundary => ?_, fun htiming => ⟨fun c hc hover => ?_, fun hunder => ⟨fun hstate hidle => ?_, ?_⟩, fun hport =>
      ⟨fun l hl hover => ?_, fun hstartup => ⟨fun r hr hover => ?_, fun hread => ?_⟩, fun hstore =>
        ⟨fun r hr hwaits hlink => ?_, fun hread => ?_⟩⟩⟩⟩
  · unfold tick State.modPort State.modStore
    rw [Store.tick_eq, Port.tick_eq]
    rfl
  · have htimers {c : Instr} (h : (if s.tmn.state ≠ .locked ∧ 2048 ≤ s.tmn.frameTimer then
          some (if 40 ≤ s.tmn.frames then Instr.blockBoundary else .frameBoundary)
        else if s.tmn.state = .locked ∧ 2112 ≤ s.tmn.syncTicks then some .clockFail
        else if s.tmn.state = .acquiring ∧ 2112 ≤ s.tmn.syncTicks then some .acquisitionTimeout
        else none) = some c) : step s = exec c s :=
      step_due hqueue (due_of_timing ((dueTiming_timers hgrace hboundary).trans h))
    refine ⟨fun hstate hover => htimers (if_pos ⟨hstate, hover⟩), fun hstate hover => htimers ?_,
      fun hstate hunder hover => htimers ?_⟩
    · exact (if_neg fun h => h.1 hstate).trans (if_pos ⟨hstate, hover⟩)
    · exact (if_neg (by omega)).trans ((if_neg (by simp [hstate])).trans (if_pos ⟨hstate, hover⟩))
  · exact step_due hqueue (due_of_port htiming (Port.due_character hc (c.over_iff.2 hover)))
  · exact step_due hqueue (due_of_port htiming ((Port.due_limit fun c hc => mt c.over_iff.1 (hunder c hc)).trans
      (Port.dueLimit_idle hstate hidle)))
  · intro o hreceiver ho hwaiting begins
    have hreply := (Port.due_limit fun c hc => mt c.over_iff.1 (hunder c hc)).trans
      (Port.dueLimit_reply (held := s.resetHeld) hreceiver ho hwaiting)
    exact ⟨fun hbegins => step_due hqueue (due_of_port htiming (hreply.trans (if_pos hbegins))), fun hwaits hover =>
      step_due hqueue (due_of_port htiming (hreply.trans ((if_neg hwaits).trans (if_pos hover))))⟩
  · exact step_due hqueue (due_of_store htiming hport (Store.overdue_startup hl hover))
  · exact step_due hqueue (due_of_store htiming hport (Store.overdue_read hstartup hr hover))
  · have hlimit {o : Operation} {c : Instr} (ho : u.op = some o) (hover : o.due = some c) : step s = exec c s :=
      step_due hqueue (due_of_store htiming hport (Store.overdue_operation hstartup hread ho hover))
    refine ⟨fun o ho hphase hover => hlimit ho (o.due_erasing hphase hover),
      fun o ho hphase hover => hlimit ho (o.due_suspending hphase hover),
      fun o ho hphase hover => hlimit ho (o.due_programming hphase hover), fun f hop hf hover => ?_⟩
    exact step_due hqueue (due_of_store htiming hport (Store.overdue_fetch hstartup hread hop hf hover))
  · exact step_due hqueue (due_of_arbiter htiming hport hstore (arbiter_serves hr hwaits (hfree hlink)))
  · have harbiter {c : Instr} (h : s.arbiter = some c) : step s = exec c s :=
      step_due hqueue (due_of_arbiter htiming hport hstore h)
    have hslots := arbiter_slots hread
    refine ⟨fun hask hlink => ?_, fun hsilent => ?_⟩
    · exact harbiter (hslots.trans ((if_pos (hasking.2 hask)).trans (if_pos (hfree hlink))))
    · have hnone : ¬ s.nextAsking.isSome = true := by simpa [hasking] using hsilent
      refine ⟨fun hactivity hphase => ?_, fun hactivity hphase => ?_⟩
      · exact harbiter (hslots.trans ((if_neg hnone).trans (if_pos ⟨hactivity, hphase⟩)))
      · exact harbiter (hslots.trans ((if_neg hnone).trans ((if_neg fun h => by simp [hphase] at h).trans
          (if_pos ⟨hactivity, hphase⟩))))

end

section
/-! SUPPORT. The start-up load: the events before its end, the header of a directory and the fields of an entry, and what the
entries taken in one after the other make of the catalogue and of the programmes (R151, R152, R197). -/

namespace Sys2Proof.Machine

/-! ### The phases (R151) -/

/-- STARTED with the result of the load (R197). -/
def loadNotice (why : Cause) (skipped stamp : Nat) : Notice :=
  { kind := .started, position := none, subject := none, cause := some why, value := some skipped, stamp := stamp }

theorem loadEnds_eq (why : Cause) (skipped : Nat) (s : State) : loadEnds why skipped s =
    { s with
      mode := .ready
      store := { s.store with startup := none }
      callQ := s.callQ.push (loadNotice why skipped s.tmn.blockCount) s.resetHeld
      floorQ := s.floorQ.push (loadNotice why skipped s.tmn.blockCount) s.resetHeld
      maintQ := s.maintQ.push (loadNotice why skipped s.tmn.blockCount) s.resetHeld } := rfl

theorem startupStoreReady_waiting {s : State} (h : s.loading = some .waitReady) : startupStoreReady s =
    s.modStore (fun u => { u with startup := some { phase := .abandoned, clock := 0 }, request := some .abandon }) := by
  unfold startupStoreReady
  rw [h]

theorem startupStoreReady_abandoned {s : State} (h : s.loading = some .abandoned) : startupStoreReady s =
    s.modStore (fun u => { u with startup := some { phase := .reading, clock := 0 }, request := some (.read 0 8) }) := by
  unfold startupStoreReady
  rw [h]

theorem startupStoreReady_reading {s : State} (h : s.loading = some .reading) : startupStoreReady s =
    s.modStore (fun u => { u with startup := some { phase := .reading, clock := 0 } }) := by
  unfold startupStoreReady
  rw [h]

theorem startupStoreReady_none {s : State} (h : s.loading = none) : startupStoreReady s = s := by
  unfold startupStoreReady
  rw [h]

/-! ### The header (R151) -/

theorem headerValid_iff (dir : List Byte) : headerValid dir = true ↔
    dir.take 4 = signature ∧ dirCount dir ≤ 128 ∧ byteSum (dirEntries dir) = dirSum dir := by
  simp [headerValid, and_assoc]

theorem startupLoadEnd_bad {dir : List Byte} {s : State} (hload : s.loading = some .abandoned ∨ s.loading = some .reading)
    (hlen : dir.length = 1544) (hbad : ¬ headerValid dir = true) :
    startupLoadEnd dir s = loadEnds .bad 0 (s.modStore (fun u => { u with request := some (lastRead dir) })) :=
  (if_pos ⟨hload, hlen⟩).trans (if_neg hbad)

theorem startupLoadEnd_ok {dir : List Byte} {s : State} (hload : s.loading = some .abandoned ∨ s.loading = some .reading)
    (hlen : dir.length = 1544) (hvalid : headerValid dir = true) {t : State} {skipped : Nat}
    (htaken : (List.range (dirCount dir)).foldl (takeEntry dir)
      (s.modStore (fun u => { u with request := some (lastRead dir) }), 0) = (t, skipped)) :
    startupLoadEnd dir s = loadEnds .ok skipped t := by
  refine (if_pos ⟨hload, hlen⟩).trans ((if_pos hvalid).trans ?_)
  rw [htaken]

theorem startupLoadEnd_not {dir : List Byte} {s : State}
    (hnot : dir.length ≠ 1544 ∨ ¬ (s.loading = some .abandoned ∨ s.loading = some .reading)) : startupLoadEnd dir s = s :=
  if_neg fun ⟨hload, hlen⟩ => hnot.elim (fun h => h hlen) fun h => h hload

/-! ### One entry (R152) -/

theorem field1_drop (dir : List Byte) (n i : Nat) : field1 (dir.drop n) i = field1 dir (n + i) := by
  simp [field1, List.getD_eq_getElem?_getD]

theorem field3_drop (dir : List Byte) (n i : Nat) : field3 (dir.drop n) i = field3 dir (n + i) := by
  simp only [field3, field2, field1_drop, Nat.add_assoc]

/-- The fields with which an entry is valid, by their bytes (R152). -/
theorem DirEntry.valid_eq (c cl binding start len loop : Nat) :
    (DirEntry.mk c (classOf cl) binding start len loop).valid =
      if c < 128 ∧ cl ≤ 2 ∧ clipFieldsFit (classNumber cl) start len loop = true ∧
          (binding = 255 ∨ binding ≤ 3 ∧ cl = 0) then
        some (c, clipBody (classNumber cl) start len loop, if binding = 255 then none else some binding)
      else none := by
  unfold DirEntry.valid
  by_cases hcl : cl ≤ 2
  · have hrange : (127 < c ∨ (!clipFieldsFit (classNumber cl) start len loop) = true) ↔
        ¬ (c < 128 ∧ clipFieldsFit (classNumber cl) start len loop = true) := by
      rw [not_and_or, Bool.not_eq_true', Bool.not_eq_true, Nat.not_lt]
      rfl
    have hbinds : (3 < binding ∨ classNumber cl ≠ .music) ↔ ¬ (binding ≤ 3 ∧ cl = 0) := by
      rw [ne_eq, classNumber_music]
      omega
    simp only [classOf_some hcl, hrange, hbinds]
    by_cases hfits : c < 128 ∧ clipFieldsFit (classNumber cl) start len loop = true
    · rw [if_neg (not_not.2 hfits)]
      obtain ⟨hc, hfit⟩ := hfits
      by_cases hnone : binding = 255
      · rw [if_pos hnone, if_pos ⟨hc, hcl, hfit, .inl hnone⟩, if_pos hnone]
      · rw [if_neg hnone]
        by_cases hmusic : binding ≤ 3 ∧ cl = 0
        · rw [if_neg (not_not.2 hmusic), if_pos ⟨hc, hcl, hfit, .inr hmusic⟩, if_neg hnone]
        · rw [if_pos hmusic, if_neg fun ⟨_, _, _, hbinding⟩ => hbinding.elim hnone hmusic]
    · rw [if_pos hfits, if_neg fun ⟨hc, _, hfit, _⟩ => hfits ⟨hc, hfit⟩]
  · rw [classOf_none (by omega), if_neg fun ⟨_, hle, _⟩ => hcl hle]

/-- What a valid entry says: a clip id, its clip, and the programme that it binds. -/
abbrev LoadEntry := Nat × ClipBody × Option Nat

/-- The entry at place `i` is valid, and none before it has its clip id: it is taken in (R152). -/
def takenEntry (dir : List Byte) (i : Nat) : Option LoadEntry :=
  (dirEntryAt dir i).valid.filter (fun e => (List.range i).all fun j => (dirEntryAt dir j).valid.map (·.1) != some e.1)

theorem takenEntry_iff (dir : List Byte) (i : Nat) (e : LoadEntry) : takenEntry dir i = some e ↔
    (dirEntryAt dir i).valid = some e ∧ ∀ j, j < i → (dirEntryAt dir j).valid.map (·.1) ≠ some e.1 := by
  simp [takenEntry, Option.filter_eq_some_iff]

/-- The entries that are taken in of the first `n`. -/
def takenEntries (dir : List Byte) (n : Nat) : List LoadEntry := (List.range n).filterMap (takenEntry dir)

theorem takenEntries_succ (dir : List Byte) (n : Nat) :
    takenEntries dir (n + 1) = takenEntries dir n ++ (takenEntry dir n).toList := by
  unfold takenEntries
  rw [List.range_succ, List.filterMap_append]
  cases hn : takenEntry dir n <;> simp [hn]

/-- Of the valid entries with one clip id the first is taken in. -/
theorem exists_takenEntry {dir : List Byte} {c : Nat} (i : Nat) (hi : (dirEntryAt dir i).valid.map (·.1) = some c) :
    ∃ j e, j ≤ i ∧ takenEntry dir j = some e ∧ e.1 = c := by
  induction i using Nat.strongRecOn with
  | ind i ih =>
    obtain ⟨e, he, rfl⟩ := Option.map_eq_some_iff.1 hi
    by_cases hfirst : ∀ j, j < i → (dirEntryAt dir j).valid.map (·.1) ≠ some e.1
    · exact ⟨i, e, Nat.le_refl i, (takenEntry_iff dir i e).2 ⟨he, hfirst⟩, rfl⟩
    · push Not at hfirst
      obtain ⟨j, hj, hsame⟩ := hfirst
      obtain ⟨k, e', hk, htaken, hid⟩ := ih j hj hsame
      exact ⟨k, e', by omega, htaken, hid⟩

theorem mem_takenEntries_clip (dir : List Byte) (n c : Nat) :
    (∃ e ∈ takenEntries dir n, e.1 = c) ↔ ∃ i, i < n ∧ (dirEntryAt dir i).valid.map (·.1) = some c := by
  simp only [takenEntries, List.mem_filterMap, List.mem_range]
  constructor
  · rintro ⟨e, ⟨i, hi, he⟩, rfl⟩
    exact ⟨i, hi, by rw [((takenEntry_iff dir i e).1 he).1]; rfl⟩
  · rintro ⟨i, hi, hc⟩
    obtain ⟨j, e, hj, he, hid⟩ := exists_takenEntry i hc
    exact ⟨e, ⟨j, by omega, he⟩, hid⟩

/-! ### The entries one after the other (R152) -/

/-- An ACTIVE entry of the catalogue that nothing uses. -/
def Clip.holding (b : ClipBody) : Clip := { state := .active, body := some b, use := 0, fenced := false }

/-- A clip that is taken in, and bound where a programme is named that has none yet (R152). -/
def State.takes (s : State) (e : LoadEntry) : State :=
  match e.2.2 with
  | some k => bindProgramme k e.1 (s.modClip e.1 (fun _ => .holding e.2.1))
  | none => s.modClip e.1 (fun _ => .holding e.2.1)

theorem takes_clipAt (s : State) (e : LoadEntry) {c : Nat} (hc : c < 128) :
    (s.takes e).clipAt c = if e.1 = c then .holding e.2.1 else s.clipAt c := by
  have hclip : (s.takes e).clip = (s.modClip e.1 (fun _ => .holding e.2.1)).clip := by
    unfold State.takes
    split <;> simp
  rw [clipAt_congr hclip, State.modClip_clipAt]
  refine if_congr ⟨fun h => h.1, fun h => ⟨h, h ▸ hc⟩⟩ rfl rfl

theorem takes_progAt (s : State) (e : LoadEntry) {k : Nat} (hk : k < 4) : (s.takes e).progAt k =
    if e.2.2 = some k ∧ (s.progAt k).clip = none then { s.progAt k with clip := some e.1, pending := .empty }
    else s.progAt k := by
  unfold State.takes bindProgramme
  split
  next j hj =>
    by_cases hkj : j = k
    · subst hkj
      by_cases hclip : (s.progAt j).clip = none <;> simp [hclip, hj, hk]
    · split <;> simp [hkj, hj]
  next hnone => simp [hnone]

theorem takes_eq (s : State) (e : LoadEntry) :
    s.takes e = { s with clip := (s.takes e).clip, prog := (s.takes e).prog } := by
  unfold State.takes bindProgramme
  split
  · split <;> rfl
  · rfl

theorem takeEntry_skips {dir : List Byte} {acc : State × Nat} {i : Nat}
    (h : ∀ e, (dirEntryAt dir i).valid = some e → (acc.1.clipAt e.1).state ≠ .empty) :
    takeEntry dir acc i = (acc.1, acc.2 + 1) := by
  unfold takeEntry
  dsimp only
  split
  · rfl
  next c b k hvalid => exact if_pos (h _ hvalid)

theorem takeEntry_takes {dir : List Byte} {acc : State × Nat} {i : Nat} {e : LoadEntry}
    (hvalid : (dirEntryAt dir i).valid = some e) (hempty : (acc.1.clipAt e.1).state = .empty) :
    takeEntry dir acc i = (acc.1.takes e, acc.2) := by
  obtain ⟨c, b, k⟩ := e
  unfold takeEntry
  rw [hvalid]
  dsimp only
  rw [if_neg (not_not.2 hempty)]
  cases k <;> rfl

/-- What the entries taken in say of clip `c`. -/
def bodyOfClip (es : List LoadEntry) (c : Nat) : Option ClipBody := (es.find? (fun e => e.1 == c)).map (·.2.1)

/-- The clip that the entries taken in bind to programme `k`: the first of them that names it counts. -/
def clipOfProgramme (es : List LoadEntry) (k : Nat) : Option Nat := (es.find? (fun e => e.2.2 == some k)).map (·.1)

/-- What the load has made of the empty catalogue and the unbound programmes of `s` when it has taken in the given entries. -/
structure Loaded (s : State) (es : List LoadEntry) (t : State) : Prop where
  clip : ∀ c, c < 128 → t.clipAt c = (bodyOfClip es c).elim Clip.empty Clip.holding
  prog : ∀ k, k < 4 → t.progAt k = { s.progAt k with clip := clipOfProgramme es k }
  rest : t = { s with clip := t.clip, prog := t.prog }

theorem Loaded.start {s : State} (hclip : ∀ c, c < 128 → s.clipAt c = .empty) (hprog : ∀ k, k < 4 → (s.progAt k).clip = none) :
    Loaded s [] s :=
  ⟨hclip, fun k hk => by rw [show clipOfProgramme [] k = none from rfl, ← hprog k hk], rfl⟩

theorem bodyOfClip_none_iff (es : List LoadEntry) (c : Nat) : bodyOfClip es c = none ↔ ∀ e ∈ es, e.1 ≠ c := by
  rw [bodyOfClip, Option.map_eq_none_iff, List.find?_eq_none]
  simp only [beq_iff_eq, ne_eq]

theorem bodyOfClip_append (es : List LoadEntry) (e : LoadEntry) (c : Nat) :
    bodyOfClip (es ++ [e]) c = (bodyOfClip es c).or (if e.1 = c then some e.2.1 else none) := by
  unfold bodyOfClip
  rw [List.find?_append, List.find?_singleton]
  by_cases hec : e.1 = c <;> cases es.find? (fun d => d.1 == c) <;> simp [hec]

theorem clipOfProgramme_append (es : List LoadEntry) (e : LoadEntry) (k : Nat) :
    clipOfProgramme (es ++ [e]) k = (clipOfProgramme es k).or (if e.2.2 = some k then some e.1 else none) := by
  unfold clipOfProgramme
  rw [List.find?_append, List.find?_singleton]
  by_cases hek : e.2.2 = some k <;> cases es.find? (fun d => d.2.2 == some k) <;> simp [hek]

/-- What is still EMPTY has been named by no entry. -/
theorem Loaded.empty_iff {s t : State} {es : List LoadEntry} (h : Loaded s es t) {c : Nat} (hc : c < 128) :
    (t.clipAt c).state = .empty ↔ ∀ e ∈ es, e.1 ≠ c := by
  rw [h.clip c hc, ← bodyOfClip_none_iff]
  cases bodyOfClip es c <;> simp [Clip.empty, Clip.holding]

theorem Loaded.takes {s t : State} {es : List LoadEntry} (h : Loaded s es t)
    (hpending : ∀ k, k < 4 → (s.progAt k).pending = .empty) (e : LoadEntry) (hnew : ∀ d ∈ es, d.1 ≠ e.1) :
    Loaded s (es ++ [e]) (t.takes e) := by
  refine ⟨fun c hc => ?_, fun k hk => ?_, ?_⟩
  · rw [takes_clipAt t e hc, h.clip c hc, bodyOfClip_append]
    by_cases hec : e.1 = c
    · subst hec
      rw [(bodyOfClip_none_iff es e.1).2 hnew]
      simp
    · simp [hec]
  · rw [takes_progAt t e hk, h.prog k hk, clipOfProgramme_append]
    by_cases hek : e.2.2 = some k
    · cases clipOfProgramme es k <;> simp [hek, ← hpending k hk]
    · simp [hek]
  · rw [takes_eq t e]
    exact congrArg (fun v : State => { v with clip := (t.takes e).clip, prog := (t.takes e).prog }) h.rest

/-- The load has taken in what it takes in of the first `n` places, and skipped the others (R152). -/
theorem loaded_range {dir : List Byte} {s : State} (hclip : ∀ c, c < 128 → s.clipAt c = .empty)
    (hprog : ∀ k, k < 4 → (s.progAt k).clip = none ∧ (s.progAt k).pending = .empty) (n : Nat) :
    ∃ acc, (List.range n).foldl (takeEntry dir) (s, 0) = acc ∧ Loaded s (takenEntries dir n) acc.1 ∧
      acc.2 + (takenEntries dir n).length = n := by
  induction n with
  | zero => exact ⟨_, rfl, .start hclip fun k hk => (hprog k hk).1, rfl⟩
  | succ n ih =>
    obtain ⟨acc, hacc, hloaded, hcount⟩ := ih
    rw [List.range_succ, List.foldl_append, hacc, takenEntries_succ]
    refine ⟨takeEntry dir acc n, rfl, ?_⟩
    have hempty {e : LoadEntry} (he : (dirEntryAt dir n).valid = some e) :
        (acc.1.clipAt e.1).state = .empty ↔ ∀ j, j < n → (dirEntryAt dir j).valid.map (·.1) ≠ some e.1 := by
      rw [hloaded.empty_iff (DirEntry.valid_some he).1]
      have hnamed := not_congr (mem_takenEntries_clip dir n e.1)
      push Not at hnamed
      exact hnamed
    cases htaken : takenEntry dir n with
    | some e =>
      obtain ⟨hvalid, hfirst⟩ := (takenEntry_iff dir n e).1 htaken
      have hfree := (hempty hvalid).2 hfirst
      rw [takeEntry_takes hvalid hfree]
      refine ⟨hloaded.takes (fun k hk => (hprog k hk).2) e
        ((hloaded.empty_iff (DirEntry.valid_some hvalid).1).1 hfree), ?_⟩
      simp only [Option.toList_some, List.length_append, List.length_singleton]
      omega
    | none =>
      have hskips : takeEntry dir acc n = (acc.1, acc.2 + 1) := takeEntry_skips fun e he hfree => by
        rw [(takenEntry_iff dir n e).2 ⟨he, (hempty he).1 hfree⟩] at htaken
        cases htaken
      rw [hskips]
      simp only [Option.toList_none, List.append_nil]
      exact ⟨hloaded, by omega⟩

/-! ### The entry at a place (R151, R152) -/

/-- The address of the entry at place `i` (R151). -/
def placeOf (i : Nat) : Nat := 8 + 12 * i

/-- The checks of the entry at place `i` (R152). -/
def placeFits (dir : List Byte) (i : Nat) : Bool :=
  let o := placeOf i
  field1 dir o < 128 && field1 dir (o + 1) ≤ 2 && field3 dir (o + 3) % 64 == 0 && 4096 ≤ field3 dir (o + 3) &&
    1 ≤ field3 dir (o + 6) && field3 dir (o + 3) + field3 dir (o + 6) ≤ 16777216 &&
    (field1 dir (o + 1) != 0 || field3 dir (o + 9) < field3 dir (o + 6)) &&
    (field1 dir (o + 2) == 255 || (field1 dir (o + 2) ≤ 3 && field1 dir (o + 1) == 0))

/-- The entry at place `i` passes them, and no entry before it that passes them has its clip id (R152). -/
def placeTaken (dir : List Byte) (i : Nat) : Bool :=
  placeFits dir i && (List.range i).all (fun j => !(placeFits dir j && field1 dir (placeOf j) == field1 dir (placeOf i)))

/-- What the bytes at place `i` say. -/
def placeEntry (dir : List Byte) (i : Nat) : LoadEntry :=
  let o := placeOf i
  (field1 dir o, clipBody (classNumber (field1 dir (o + 1))) (field3 dir (o + 3)) (field3 dir (o + 6)) (field3 dir (o + 9)),
    if field1 dir (o + 2) = 255 then none else some (field1 dir (o + 2)))

section
variable (dir : List Byte) (i : Nat)

theorem dirEntryAt_eq : dirEntryAt dir i =
    ⟨field1 dir (placeOf i), classOf (field1 dir (placeOf i + 1)), field1 dir (placeOf i + 2), field3 dir (placeOf i + 3),
      field3 dir (placeOf i + 6), field3 dir (placeOf i + 9)⟩ := by
  simp only [dirEntryAt, field1_drop, field3_drop, Nat.add_zero, placeOf]

theorem dirEntryAt_valid : (dirEntryAt dir i).valid = if placeFits dir i = true then some (placeEntry dir i) else none := by
  rw [dirEntryAt_eq, DirEntry.valid_eq]
  refine if_congr ?_ rfl rfl
  simp only [placeFits, clipFieldsFit_iff, classNumber_music, Bool.and_eq_true, Bool.or_eq_true, decide_eq_true_eq,
    beq_iff_eq, bne_iff_ne]
  omega

theorem takenEntry_eq : takenEntry dir i = if placeTaken dir i = true then some (placeEntry dir i) else none := by
  have hbefore (j : Nat) : ((dirEntryAt dir j).valid.map (·.1) != some (placeEntry dir i).1) =
      !(placeFits dir j && field1 dir (placeOf j) == field1 dir (placeOf i)) := by
    rw [dirEntryAt_valid]
    cases placeFits dir j <;> simp [placeEntry, bne]
  unfold takenEntry placeTaken
  rw [dirEntryAt_valid]
  cases placeFits dir i with
  | false => simp
  | true => simp [Option.filter_some, hbefore]

theorem takenEntry_any (p : LoadEntry → Bool) : (takenEntry dir i).any p = (placeTaken dir i && p (placeEntry dir i)) := by
  rw [takenEntry_eq]
  cases placeTaken dir i <;> simp

end

section
variable (dir : List Byte) (n : Nat)

theorem takenEntries_length : (takenEntries dir n).length = ((List.range n).filter (placeTaken dir)).length := by
  have hsome (i : Nat) : (takenEntry dir i).isSome = placeTaken dir i := by
    rw [takenEntry_eq]
    cases placeTaken dir i <;> rfl
  rw [takenEntries, List.length_filterMap_eq_countP, List.countP_eq_length_filter]
  simp only [hsome]

/-- The first entry taken in that meets a condition stands at the first such place. -/
theorem find?_takenEntries (p : LoadEntry → Bool) : (takenEntries dir n).find? p =
    ((List.range n).find? (fun i => placeTaken dir i && p (placeEntry dir i))).map (placeEntry dir) := by
  rw [takenEntries, List.find?_filterMap]
  simp only [takenEntry_any]
  cases hfind : (List.range n).find? (fun i => placeTaken dir i && p (placeEntry dir i)) with
  | none => rfl
  | some i =>
    have hboth : (placeTaken dir i && p (placeEntry dir i)) = true := (List.find?_range_eq_some.1 hfind).1
    exact (takenEntry_eq dir i).trans (if_pos (Bool.and_eq_true_iff.1 hboth).1)

theorem bodyOfClip_takenEntries (c : Nat) : bodyOfClip (takenEntries dir n) c =
    ((List.range n).find? (fun i => placeTaken dir i && field1 dir (placeOf i) == c)).map
      (fun i => (placeEntry dir i).2.1) := by
  rw [bodyOfClip, find?_takenEntries, Option.map_map]
  rfl

theorem clipOfProgramme_takenEntries {k : Nat} (hk : k < 4) : clipOfProgramme (takenEntries dir n) k =
    ((List.range n).find? (fun i => placeTaken dir i && field1 dir (placeOf i + 2) == k)).map
      (fun i => field1 dir (placeOf i)) := by
  have hnames (i : Nat) : ((placeEntry dir i).2.2 == some k) = (field1 dir (placeOf i + 2) == k) := by
    have hbinds : (if field1 dir (placeOf i + 2) = 255 then none else some (field1 dir (placeOf i + 2))) = some k ↔
        field1 dir (placeOf i + 2) = k := by
      split
      next hnone =>
        simp only [reduceCtorEq, false_iff]
        omega
      next => simp
    rw [Bool.eq_iff_iff, beq_iff_eq, beq_iff_eq]
    exact hbinds
  rw [clipOfProgramme, find?_takenEntries, Option.map_map]
  simp only [hnames]
  rfl

end

/-- A directory whose header is valid is taken in place by place, and its end counts the places that were skipped (R152). -/
theorem startupLoadEnd_loads {dir : List Byte} {s : State} (hload : s.loading = some .abandoned ∨ s.loading = some .reading)
    (hlen : dir.length = 1544) (hvalid : headerValid dir = true) (hclip : ∀ c, c < 128 → s.clipAt c = .empty)
    (hprog : ∀ k, k < 4 → (s.progAt k).clip = none ∧ (s.progAt k).pending = .empty) :
    ∃ t skipped, startupLoadEnd dir s = loadEnds .ok skipped t ∧
      Loaded (s.modStore (fun u => { u with request := some (lastRead dir) })) (takenEntries dir (dirCount dir)) t ∧
      skipped + (takenEntries dir (dirCount dir)).length = dirCount dir := by
  obtain ⟨acc, hacc, hloaded, hcount⟩ := loaded_range (s := s.modStore (fun u => { u with request := some (lastRead dir) }))
    (dir := dir) hclip hprog (dirCount dir)
  exact ⟨acc.1, acc.2, startupLoadEnd_ok hload hlen hvalid hacc, hloaded, hcount⟩

end Sys2Proof.Machine

open Sys2Proof Sys2Proof.Machine

/-- Settles O44: the phases, the header, and the entries taken in place by place. -/
theorem startUpLoadsEndInReady : Obligations.StartUpLoadsEndInReady := by
  intro dir s phase loading at1 at3 count signed valid moved ended asked place fits taken places
  have hnext {t u : State} (h : t = u) : Host.Outcome.next (φ := Fault) (ρ := Refusal) t = .next u := congrArg _ h
  have hvalid : headerValid dir = true ↔ valid := headerValid_iff dir
  refine ⟨fun h => hnext (startupStoreReady_waiting h), fun h => hnext (startupStoreReady_abandoned h),
    fun h => hnext (startupStoreReady_reading h), fun h => ⟨hnext (startupStoreReady_none h), hnext (if_neg ?_)⟩,
    fun h => hnext (if_pos ?_), fun h => hnext (startupLoadEnd_not h),
    fun hlen hload => ⟨fun hbad => ?_, fun hok hclip hprog => ?_⟩⟩
  · simp [show s.loading = none from h]
  · exact Option.isSome_iff_ne_none.2 h
  · exact hnext (startupLoadEnd_bad hload hlen (mt hvalid.1 hbad))
  have hat3 : at3 = field3 dir := funext fun o => Nat.add_assoc ..
  have hfits : fits = placeFits dir := by
    simp only [fits, hat3]
    rfl
  have htaken : taken = placeTaken dir := by
    simp only [taken, hfits]
    rfl
  obtain ⟨t, skipped, hend, hloaded, hcount⟩ := startupLoadEnd_loads hload hlen (hvalid.2 hok) hclip hprog
  refine ⟨_, hnext hend, fun c hc => ?_, fun k hk => ?_, ?_⟩
  · refine (hloaded.clip c hc).trans ?_
    have hbody (i : Nat) : (placeEntry dir i).2.1 = {
        cls := if at1 (place i + 1) = 0 then .music else if at1 (place i + 1) = 1 then .whisper else .caller
        start := at3 (place i + 3), length := at3 (place i + 6)
        loop := if at1 (place i + 1) = 0 then some (at3 (place i + 9)) else none } := by
      rw [hat3]
      exact clipBody_eq ..
    rw [bodyOfClip_takenEntries, htaken]
    simp only [hbody]
    generalize hfound : places.find? (fun i => placeTaken dir i && at1 (place i) == c) = found
    change (Option.map _ (places.find? (fun i => placeTaken dir i && at1 (place i) == c))).elim _ _ = _
    rw [hfound]
    cases found <;> rfl
  · refine (hloaded.prog k hk).trans ?_
    rw [clipOfProgramme_takenEntries dir _ hk, htaken]
    rfl
  · have hskipped : count - (places.filter taken).length = skipped := by
      rw [takenEntries_length] at hcount
      rw [htaken]
      exact Nat.sub_eq_of_eq_add hcount.symm
    rw [hskipped]
    exact congrArg (loadEnds .ok skipped) hloaded.rest
end

section
/-! SUPPORT. The directory image of a sound catalogue, and the statement that the start-up load takes it in again (R150 to R152,
R197, Table 12-7). -/

namespace Sys2Proof.Machine

/-! ### Blocks of one length -/

theorem length_flatMap_const {α β : Type} {f : α → List β} {w : Nat} {l : List α} (hf : ∀ a ∈ l, (f a).length = w) :
    (l.flatMap f).length = w * l.length := by
  rw [List.length_flatMap, List.map_congr_left hf, List.map_const', List.sum_replicate, smul_eq_mul, Nat.mul_comm]

theorem drop_flatMap_const {α β : Type} {f : α → List β} {w : Nat} (n : Nat) {l : List α} (hf : ∀ a ∈ l, (f a).length = w) :
    (l.flatMap f).drop (w * n) = (l.drop n).flatMap f := by
  induction n generalizing l with
  | zero => simp
  | succ n ih =>
    cases l with
    | nil => simp
    | cons a l =>
      rw [List.flatMap_cons, Nat.mul_succ, Nat.add_comm, ← List.drop_drop, List.drop_left' (hf a (by simp)), List.drop_succ_cons]
      exact ih fun b hb => hf b (by simp [hb])

theorem flatMap_filter_of_nil {α β : Type} {f : α → List β} {p : α → Bool} {l : List α} (hf : ∀ a ∈ l, p a = false → f a = []) :
    l.flatMap f = (l.filter p).flatMap f := by
  induction l with
  | nil => rfl
  | cons a l ih =>
    have hrest := ih fun b hb => hf b (by simp [hb])
    cases hp : p a with
    | true => simp [hp, hrest]
    | false => simp [hp, hrest, hf a (by simp) hp]

/-! ### The entries of the image (R150) -/

/-- The clips that a save writes down, in increasing id. -/
def State.savedClips (s : State) : List Nat := (List.range 128).filter (fun c => (s.clipAt c).state == .active)

theorem mem_savedClips (s : State) (c : Nat) : c ∈ s.savedClips ↔ c < 128 ∧ (s.clipAt c).state = .active := by
  simp [State.savedClips]

theorem savedClips_length_le (s : State) : s.savedClips.length ≤ 128 :=
  (List.length_filter_le ..).trans_eq List.length_range

/-- What the entry of an ACTIVE clip says (R150). -/
def State.savedEntry (s : State) (c : Nat) : LoadEntry := (c, (s.clipAt c).body.getD ⟨.music, 0, 0, none⟩, s.savedBinding c)

/-- The bytes of all the entries. -/
def State.savedBytes (s : State) : List Byte := s.savedClips.flatMap s.directoryEntry

theorem savedBytes_eq (s : State) : (List.range 128).flatMap s.directoryEntry = s.savedBytes := by
  refine flatMap_filter_of_nil fun c _ hc => ?_
  unfold State.directoryEntry
  cases hstate : (s.clipAt c).state with
  | active => simp [hstate] at hc
  | empty => simp only [hstate]
  | retiring => simp only [hstate]

theorem directoryImage_eq (s : State) : s.directoryImage =
    [84, 71, 68, 82, toByte (s.savedBytes.length / 12 / 256), toByte (s.savedBytes.length / 12),
      toByte (byteSum s.savedBytes / 256), toByte (byteSum s.savedBytes)] ++
    (s.savedBytes ++ List.replicate (1536 - s.savedBytes.length) 255) := by
  unfold State.directoryImage
  rw [savedBytes_eq]
  simp [signature, put2, Config.imageBytes]

theorem directoryEntry_active {s : State} {c : Nat} {b : ClipBody} (hactive : (s.clipAt c).state = .active)
    (hbody : (s.clipAt c).body = some b) : s.directoryEntry c =
      put1 c ++ put1 (classCode b.cls) ++ putOpt1 (s.savedBinding c) ++ put3 b.start ++ put3 b.length ++
        put3 (b.loop.getD 0) := by
  unfold State.directoryEntry
  simp only [hactive, hbody]

theorem savedBinding_eq_some (s : State) (c k : Nat) : s.savedBinding c = some k ↔
    k < 4 ∧ (s.progAt k).next = some c ∧ ∀ j, j < k → (s.progAt j).next ≠ some c := by
  unfold State.savedBinding
  rw [List.find?_range_eq_some]
  simp [and_left_comm]

theorem savedBinding_getD (s : State) (c : Nat) :
    (if (s.savedBinding c).getD 255 = 255 then none else some ((s.savedBinding c).getD 255)) =
    s.savedBinding c := by
  cases hbinding : s.savedBinding c with
  | none => rfl
  | some k =>
    obtain ⟨hk, _⟩ := (savedBinding_eq_some s c k).1 hbinding
    exact if_neg (by rw [Option.getD_some]; omega)

theorem binds_of_next {g : Programme} {c : Nat} (h : g.next = some c) : g.binds c = true := by
  rw [Programme.binds_iff]
  unfold Programme.next at h
  cases hpending : g.pending <;> simp_all

section
variable {s : State} (h : CatalogueLaw s)
include h

/-- An ACTIVE clip has a body with fields that CLIP_LOAD admits (R113, R114). -/
theorem active_body {c : Nat} (hc : c < 128) (hactive : (s.clipAt c).state = .active) : ∃ b, (s.clipAt c).body = some b ∧
    clipFieldsFit b.cls b.start b.length (b.loop.getD 0) = true ∧ (b.loop.isSome ↔ b.cls = .music) := by
  obtain ⟨_, hempty, _, _, hfits⟩ := h.1 c hc
  cases hbody : (s.clipAt c).body with
  | none => simp [hempty.2 hbody] at hactive
  | some b => exact ⟨b, rfl, hfits b hbody⟩

/-- The clip that a programme plays next is ACTIVE and of class MUSIC (R132). -/
theorem next_active {c k : Nat} (hk : k < 4) (hnext : (s.progAt k).next = some c) :
    c < 128 ∧ (s.clipAt c).state = .active ∧ (s.clipAt c).body.map (·.cls) = some .music :=
  h.2 k hk c (binds_of_next hnext)

theorem directoryEntry_length {c : Nat} (hc : c ∈ s.savedClips) : (s.directoryEntry c).length = 12 := by
  obtain ⟨hlt, hactive⟩ := (mem_savedClips s c).1 hc
  obtain ⟨b, hbody, _⟩ := active_body h hlt hactive
  rw [directoryEntry_active hactive hbody]
  rfl

theorem savedBytes_length : s.savedBytes.length = 12 * s.savedClips.length :=
  length_flatMap_const fun _ hc => directoryEntry_length h hc

/-- The programme that an entry names plays a clip of class MUSIC (R132). -/
theorem savedBinding_valid {c : Nat} {b : ClipBody} (hbody : (s.clipAt c).body = some b) :
    (s.savedBinding c).getD 255 = 255 ∨ (s.savedBinding c).getD 255 ≤ 3 ∧ classCode b.cls = 0 := by
  cases hbinding : s.savedBinding c with
  | none => exact .inl rfl
  | some k =>
    obtain ⟨hk, hnext, _⟩ := (savedBinding_eq_some s c k).1 hbinding
    obtain ⟨_, _, hmusic⟩ := next_active h hk hnext
    rw [hbody] at hmusic
    exact .inr ⟨Nat.le_of_lt_succ hk, congrArg classCode (Option.some.inj hmusic)⟩

/-- An entry of the image, read by the load, says what was saved (R150, R152). -/
theorem directoryEntry_reads {c : Nat} (hc : c ∈ s.savedClips) {dir : List Byte} {i : Nat} {rest : List Byte}
    (hdir : dir.drop (8 + 12 * i) = s.directoryEntry c ++ rest) : (dirEntryAt dir i).valid = some (s.savedEntry c) := by
  obtain ⟨hlt, hactive⟩ := (mem_savedClips s c).1 hc
  obtain ⟨b, hbody, hfits, hloops⟩ := active_body h hlt hactive
  have hbinding := savedBinding_valid h hbody
  have hcode : classCode b.cls ≤ 2 := by cases b.cls <;> decide
  have hcls : classNumber (classCode b.cls) = b.cls := by cases b.cls <;> rfl
  obtain ⟨_, _, _, hlen, hend, hloop⟩ := (clipFieldsFit_iff ..).1 hfits
  have hroom : b.loop.getD 0 < 16777216 := by
    cases hl : b.loop with
    | none => decide
    | some l =>
      have hmusic := hloop (hloops.1 (by simp [hl]))
      rw [hl] at hmusic
      rw [Option.getD_some] at hmusic ⊢
      omega
  have hentry : dirEntryAt dir i =
      ⟨c, classOf (classCode b.cls), (s.savedBinding c).getD 255, b.start, b.length, b.loop.getD 0⟩ := by
    unfold dirEntryAt
    rw [hdir, directoryEntry_active hactive hbody]
    simp only [put1, putOpt1, put3, List.cons_append, List.nil_append, field1_zero, field1_succ, field3_succ]
    rw [toByte_toNat c (by omega), toByte_toNat _ (by omega), toByte_toNat _ (by omega), field3_toByte _ _ (by omega),
      field3_toByte _ _ (by omega), field3_toByte _ _ hroom]
  have hsame : clipBody b.cls b.start b.length (b.loop.getD 0) = b := by
    obtain ⟨cls, start, len, loop⟩ := b
    cases loop <;> simp_all [clipBody]
  rw [hentry, DirEntry.valid_eq, hcls, if_pos ⟨hlt, hcode, hfits, hbinding⟩, savedBinding_getD, hsame, State.savedEntry, hbody]
  rfl

/-! ### The image (R150, Table 12-7) -/

theorem directoryImage_length : s.directoryImage.length = 1544 := by
  have hcount := savedClips_length_le s
  rw [directoryImage_eq]
  simp only [List.length_append, List.length_replicate, savedBytes_length h, List.length_cons, List.length_nil]
  omega

theorem directoryImage_count : dirCount s.directoryImage = s.savedClips.length := by
  have hcount := savedClips_length_le s
  have hentries : s.savedBytes.length / 12 = s.savedClips.length := by rw [savedBytes_length h]; omega
  rw [directoryImage_eq, hentries]
  simp only [dirCount, List.cons_append, field2_succ]
  exact field2_toByte _ _ (by omega)

theorem directoryImage_valid : headerValid s.directoryImage = true := by
  have hentries : dirEntries s.directoryImage = s.savedBytes := by
    unfold dirEntries
    rw [directoryImage_count h, directoryImage_eq, ← savedBytes_length h]
    exact List.take_left
  have hsum : dirSum s.directoryImage = byteSum s.savedBytes := by
    rw [directoryImage_eq]
    simp only [dirSum, List.cons_append, field2_succ]
    exact field2_toByte _ _ ((Nat.mod_lt _ (by decide)).trans_eq rfl)
  refine (headerValid_iff _).2 ⟨?_, ?_, by rw [hentries, hsum]⟩
  · rw [directoryImage_eq]
    rfl
  · rw [directoryImage_count h]
    exact savedClips_length_le s

/-- Place `i` of the image holds the entry of the saved clip with that number (R150). -/
theorem directoryImage_valid_at {i : Nat} (hi : i < s.savedClips.length) :
    (dirEntryAt s.directoryImage i).valid = some (s.savedEntry s.savedClips[i]) := by
  have hlen := savedBytes_length h
  refine directoryEntry_reads h (List.getElem_mem hi) (rest := (s.savedClips.drop (i + 1)).flatMap s.directoryEntry ++
    List.replicate (1536 - s.savedBytes.length) 255) ?_
  rw [← List.drop_drop, directoryImage_eq]
  show (s.savedBytes ++ _).drop (12 * i) = _
  rw [List.drop_append_of_le_length (by omega), State.savedBytes, drop_flatMap_const i fun _ hc => directoryEntry_length h hc,
    List.drop_eq_getElem_cons hi, List.flatMap_cons, List.append_assoc]

/-- The load takes in every entry of the image (R152). -/
theorem takenEntries_saved :
    takenEntries s.directoryImage s.savedClips.length = s.savedClips.map s.savedEntry := by
  have hnodup : s.savedClips.Nodup := List.nodup_range.filter _
  have htaken {i : Nat} (hi : i < s.savedClips.length) :
      takenEntry s.directoryImage i = some (s.savedEntry s.savedClips[i]) := by
    refine (takenEntry_iff ..).2 ⟨directoryImage_valid_at h hi, fun j hj hsame => ?_⟩
    rw [directoryImage_valid_at h (hj.trans hi)] at hsame
    have hij := (hnodup.getElem_inj_iff (hi := hj.trans hi) (hj := hi)).1 (Option.some.inj hsame)
    omega
  have hmap : s.savedClips = (List.range s.savedClips.length).map (fun i => s.savedClips.getD i 0) :=
    List.ext_getElem (by simp) fun i hi _ => by simp [hi]
  unfold takenEntries
  conv_rhs => rw [hmap, List.map_map]
  rw [← List.filterMap_eq_map]
  refine List.filterMap_congr fun i hi => ?_
  have hlt := List.mem_range.1 hi
  simp [htaken hlt, hlt]

end

/-! ### What is loaded again -/

section
variable {s : State} (h : CatalogueLaw s)
include h

theorem bodyOfClip_saved {c : Nat} (hc : c < 128) : bodyOfClip (s.savedClips.map s.savedEntry) c =
    if (s.clipAt c).state = .active then (s.clipAt c).body else none := by
  split
  next hactive =>
    obtain ⟨b, hbody, _⟩ := active_body h hc hactive
    rw [bodyOfClip, List.find?_map]
    cases hfind : s.savedClips.find? ((fun e : LoadEntry => e.1 == c) ∘ s.savedEntry) with
    | none =>
      have hother := List.find?_eq_none.1 hfind c ((mem_savedClips s c).2 ⟨hc, hactive⟩)
      simp [State.savedEntry] at hother
    | some d =>
      have hsame : d = c := by simpa [State.savedEntry] using List.find?_some hfind
      simp [State.savedEntry, hsame, hbody]
  next hnot =>
    refine (bodyOfClip_none_iff _ c).2 fun e he => ?_
    obtain ⟨d, hd, rfl⟩ := List.mem_map.1 he
    rintro rfl
    exact hnot ((mem_savedClips s d).1 hd).2

/-- A programme gets the clip that it was to play next, but for one that a lower-numbered programme has (R150). -/
theorem clipOfProgramme_saved {k : Nat} (hk : k < 4) (c : Nat) : clipOfProgramme (s.savedClips.map s.savedEntry) k = some c ↔
    (s.progAt k).next = some c ∧ ∀ j, j < k → (s.progAt j).next ≠ some c := by
  have hbinding (d : Nat) : s.savedBinding d = some k ↔
      (s.progAt k).next = some d ∧ ∀ j, j < k → (s.progAt j).next ≠ some d := by
    simp [savedBinding_eq_some, hk]
  rw [← hbinding, clipOfProgramme, List.find?_map, Option.map_map]
  cases hfind : s.savedClips.find? ((fun e : LoadEntry => e.2.2 == some k) ∘ s.savedEntry) with
  | none =>
    refine ⟨nofun, fun hc => ?_⟩
    obtain ⟨hlt, hactive, _⟩ := next_active h hk ((hbinding c).1 hc).1
    have hother := List.find?_eq_none.1 hfind c ((mem_savedClips s c).2 ⟨hlt, hactive⟩)
    simp [State.savedEntry, hc] at hother
  | some d =>
    have hd : s.savedBinding d = some k := by simpa [State.savedEntry] using List.find?_some hfind
    have hsame : s.savedBinding c = some k ↔ d = c :=
      ⟨fun hc => Option.some.inj (((hbinding d).1 hd).1.symm.trans ((hbinding c).1 hc).1), fun hdc => hdc ▸ hd⟩
    simp [State.savedEntry, hsame]

end

end Sys2Proof.Machine

open Sys2Proof Sys2Proof.Machine

/-- Settles O43: the image is a valid directory whose entries are all taken in. -/
theorem savedDirectoriesAreLoadedAgain : Obligations.SavedDirectoriesAreLoadedAgain := by
  intro s u h hload hclip hprog next started
  have hvalid := directoryImage_valid h
  obtain ⟨t, skipped, hend, hloaded, hcount⟩ := startupLoadEnd_loads hload (directoryImage_length h) hvalid hclip hprog
  rw [directoryImage_count h, takenEntries_saved h] at hloaded hcount
  have hnone : skipped = 0 := by
    rw [List.length_map] at hcount
    omega
  subst hnone
  refine ⟨directoryImage_length h, _, congrArg Host.Outcome.next hend, fun c hc => ?_, fun k hk => ?_, ?_⟩
  · refine (hloaded.clip c hc).trans ?_
    rw [bodyOfClip_saved h hc]
    split
    next hactive =>
      obtain ⟨b, hbody, _⟩ := active_body h hc hactive
      simp [Clip.holding, hactive, hbody]
    next => rfl
  · have hp := hloaded.prog k hk
    refine ⟨hp.trans ?_, fun c => ?_⟩
    · show _ = { u.progAt k with clip := (t.progAt k).clip }
      rw [hp]
      rfl
    · show (t.progAt k).clip = some c ↔ _
      rw [hp]
      exact clipOfProgramme_saved h hk c
  · obtain ⟨x, y, ht⟩ : ∃ x y, t = { u.modStore (fun v => { v with request := some (lastRead s.directoryImage) }) with
        clip := x, prog := y } := ⟨_, _, hloaded.rest⟩
    subst ht
    rfl

end
